-- ==== Sys2Proof/Word.lean ====
section
/-! DEFINITION. The word types of the block: the 32-bit bus word (20 R78), its byte lanes (20 R75) and the signed
16-bit sample (10 R53). Nothing here is arithmetic a test could show wrong. -/

namespace Sys2Proof

/-- One byte lane of the bus (20 R75). -/
abbrev Byte := BitVec 8

/-- One bus word: every access moves exactly 32 bits (20 R78). -/
abbrev Word := BitVec 32

/-- One sample as stored: 16 bits, two's complement, read with `BitVec.toInt` (10 R53, 00 R9). -/
abbrev Sample := BitVec 16

end Sys2Proof
end

