-- ==== Sys2Proof/Syntax.lean ====
section
/-! DEFINITION. What can be said to the block: the ten instructions of the opcode table (30 R100 to R107), the two host
transactions (20 R70), the registers of the window by name (10 R20), and the agents that take steps (00 R6). -/

namespace Sys2Proof

/-- The instructions of spec/opcode_table.json, one constructor per row (30 R100). No command has an operand field
(30 R101). The samples are two's complement bit patterns. -/
inductive Instr where
  /-- CMD word 0: no operation (40 R135). -/
  | nop
  /-- CMD word 1: the whole pipeline on the held frame (41 R165). -/
  | run
  /-- CMD word 2: the volume gate alone (41 R164). -/
  | gate
  /-- CMD word 3: window, transform and peak search (42 R206). -/
  | spectrum
  /-- CMD word 4: bin index to hertz (42 R205). -/
  | bin2freq
  /-- CMD word 5: frequency to note (43 R244). -/
  | mapnote
  /-- CMD word 6: discard the held samples (40 R136). -/
  | flush
  /-- Write to SAMPLE_PUSH: bits [15:0] are the sample, bits [31:16] are ignored (40 R139). -/
  | samplePush (sample ignored : BitVec 16)
  /-- Write to SAMPLE_PUSH2: bits [15:0] are pushed first, bits [31:16] second (40 R140). -/
  | samplePush2 (first second : BitVec 16)
  /-- One handshake on the stream port (40 R141). -/
  | streamPush (sample : BitVec 16)
deriving DecidableEq, Repr

/-- Where an instruction is issued: the three registers a host writes it to, or the stream port (30 R100). -/
inductive Port where
  | cmd | samplePush | samplePush2 | stream
deriving DecidableEq, Repr

/-- An instruction as it arrives: its port and its bits (30 R100). -/
inductive Issue where
  | cmd (word : Word)
  | samplePush (word : Word)
  | samplePush2 (word : Word)
  | stream (data : BitVec 16)
deriving DecidableEq, Repr

/-- The named registers of the window (10 R20). Every other word offset is reserved. -/
inductive Reg where
  | id | ctrl | srate | thresh | cmd | status | err | samplePush | samplePush2 | mapBin | mapFreq
  | result | energyLo | energyHi | rms | peakBin | peakMagLo | peakMagHi | freq
  | noteKey | notePc | noteOct | noteName | noteFreq | noteDev
deriving DecidableEq, Repr

/-- One host bus transaction (20 R70). A read is always a 32-bit read (20 R72). -/
inductive HostOp where
  /-- `BusWrite(off, size, data)`, `size` in bytes. -/
  | write (off : BitVec 8) (size : Nat) (data : Word)
  /-- `BusRead(off)`. -/
  | read (off : BitVec 8)
deriving DecidableEq, Repr

/-- Who takes a step (00 R6), the reset input among them (70 R300). -/
inductive Agent where
  | host | stream | engine | reset
deriving DecidableEq, Repr

end Sys2Proof
end

