-- ==== Sys2Proof/WellFormed.lean ====
section
/-! DEFINITION. The checks on what is said to the block. An instruction's operands are exactly the bits its encoding
has, so no instruction term is ill formed; the checks that can fail are those on a command word (30 R101 to R103) and on
a host transaction (20 R71, R72). -/

namespace Sys2Proof

/-- Every instruction term is well formed: the types of its operands are the fields of its encoding (30 R101, R107). -/
def Instr.wellFormed : Instr → Bool
  | .nop | .run | .gate | .spectrum | .bin2freq | .mapnote | .flush => true
  | .samplePush _ _ => true
  | .samplePush2 _ _ => true
  | .streamPush _ => true

/-- A CMD word is legal when its reserved bits are 0 and its opcode is one of 0x00 to 0x06 (30 R101 to R103). -/
def commandWordLegal (w : Word) : Bool :=
  w.extractLsb' 8 24 == 0#24 && decide ((w.extractLsb' 0 8).toNat ≤ 6)

/-- A transaction the block decodes: aligned, and a write is of four bytes (20 R71, R72). -/
def HostOp.wellFormed : HostOp → Bool
  | .write off size _ => off.toNat % 4 == 0 && size == 4
  | .read off => off.toNat % 4 == 0

end Sys2Proof
end

