-- ==== Sys2Proof/Decode.lean ====
section
/-! DEFINITION. The decoder and the encoder (30_encoding.md). A command is a word written to CMD, a push is a word
written to SAMPLE_PUSH or SAMPLE_PUSH2 or a handshake on the stream port: the port is part of what is decoded, because
the words alone overlap (30 R100, R118). Byte lanes are little-endian (20 R75). -/

namespace Sys2Proof

/-- Why the decoder refuses. -/
inductive DecodeReject where
  /-- A CMD word with an undefined opcode or a nonzero reserved bit (30 R103). The block raises ILLEGAL_CMD. -/
  | illegalCommand (word : Word)
  /-- Not the port's length: a word is four bytes, a stream sample two (30 R100, R118; 20 R72). -/
  | wrongLength (bytes : Nat)
deriving DecidableEq, Repr

/-- The decoder's answer. -/
inductive Decoded where
  | ok (i : Instr)
  | reject (r : DecodeReject)
deriving DecidableEq, Repr

/-- The CMD word (30 R101 to R103): bits [31:8] must be 0 and bits [7:0] are the opcode. -/
def decodeCommand (w : Word) : Decoded :=
  if w.extractLsb' 8 24 = 0#24 then
    match (w.extractLsb' 0 8).toNat with
    | 0 => .ok .nop
    | 1 => .ok .run
    | 2 => .ok .gate
    | 3 => .ok .spectrum
    | 4 => .ok .bin2freq
    | 5 => .ok .mapnote
    | 6 => .ok .flush
    | _ => .reject (.illegalCommand w)
  else .reject (.illegalCommand w)

/-- The instruction an issue stands for (30 R102, R107). -/
def decode : Issue → Decoded
  | .cmd w => decodeCommand w
  | .samplePush w => .ok (.samplePush (w.extractLsb' 0 16) (w.extractLsb' 16 16))
  | .samplePush2 w => .ok (.samplePush2 (w.extractLsb' 0 16) (w.extractLsb' 16 16))
  | .stream d => .ok (.streamPush d)

/-- How each instruction is issued (30 R102, R107). -/
def encode : Instr → Issue
  | .nop => .cmd 0x00000000
  | .run => .cmd 0x00000001
  | .gate => .cmd 0x00000002
  | .spectrum => .cmd 0x00000003
  | .bin2freq => .cmd 0x00000004
  | .mapnote => .cmd 0x00000005
  | .flush => .cmd 0x00000006
  | .samplePush sample ignored => .samplePush (ignored ++ sample)
  | .samplePush2 first second => .samplePush2 (second ++ first)
  | .streamPush sample => .stream sample

/-- The port of an issue. -/
def Issue.port : Issue → Port
  | .cmd _ => .cmd
  | .samplePush _ => .samplePush
  | .samplePush2 _ => .samplePush2
  | .stream _ => .stream

/-- The bytes an instruction has on a port (30 R100). -/
def Port.byteCount : Port → Nat
  | .cmd | .samplePush | .samplePush2 => 4
  | .stream => 2

/-- A word from its byte lanes 0 to 3 (20 R75). -/
def wordOfBytes (b0 b1 b2 b3 : Byte) : Word := b3 ++ b2 ++ b1 ++ b0

/-- The byte lanes 0 to 3 of a word (20 R75). -/
def bytesOfWord (w : Word) : List Byte :=
  [w.extractLsb' 0 8, w.extractLsb' 8 8, w.extractLsb' 16 8, w.extractLsb' 24 8]

/-- The bytes of an issue, lane 0 first (20 R75, R76). -/
def Issue.bytes : Issue → List Byte
  | .cmd w => bytesOfWord w
  | .samplePush w => bytesOfWord w
  | .samplePush2 w => bytesOfWord w
  | .stream d => [d.extractLsb' 0 8, d.extractLsb' 8 8]

/-- Decode any bytes that arrive on a port; a length that is not the port's is refused by name. -/
def decodeBytes : Port → List Byte → Decoded
  | .cmd, [b0, b1, b2, b3] => decode (.cmd (wordOfBytes b0 b1 b2 b3))
  | .samplePush, [b0, b1, b2, b3] => decode (.samplePush (wordOfBytes b0 b1 b2 b3))
  | .samplePush2, [b0, b1, b2, b3] => decode (.samplePush2 (wordOfBytes b0 b1 b2 b3))
  | .stream, [b0, b1] => decode (.stream (b1 ++ b0))
  | _, bs => .reject (.wrongLength bs.length)

/-- The byte offset a host writes an instruction to; none for the stream port (30 R100). -/
def Port.offset : Port → Option (BitVec 8)
  | .cmd => some 0x10
  | .samplePush => some 0x1C
  | .samplePush2 => some 0x20
  | .stream => none

/-- The port of an opcode-table row's bits (log entry 4): a row of 16 bits is the stream's, a 32-bit word that is one
of the seven command words (their rows fix every bit) is a command, and any other 32-bit word fits only the rows that
fix no bit, of which SAMPLE_PUSH is the first. -/
def tablePort (nbits w : Nat) : Port :=
  if nbits ≤ 16 then .stream
  else if w % 2 ^ nbits ≤ 6 then .cmd
  else .samplePush

/-- The low `n` bytes of a number, lane 0 first. -/
def bytesOfNat : Nat → Nat → List Byte
  | 0, _ => []
  | n + 1, w => BitVec.ofNat 8 w :: bytesOfNat n (w / 256)

/-- The instruction the decoder reads from a table row's bits, the bits above `nbits` being 0. -/
def decodeTableWord (nbits w : Nat) : Option Instr :=
  match decodeBytes (tablePort nbits w) (bytesOfNat (tablePort nbits w).byteCount (w % 2 ^ nbits)) with
  | .ok i => some i
  | .reject _ => none

end Sys2Proof
end

