-- ==== Sys2Proof/Config.lean ====
section
/-! DEFINITION. The parameters of 00 R7 and the identification value. Every parameter but LATENCY has a value in the
spec; LATENCY is OPEN and is no number here: the schedule in State stands for it (log entry 1). -/

namespace Sys2Proof.Config

/-- NMAX, the capacity of the frame buffer in samples (00 R7). -/
def nMax : Nat := 4096

/-- The least and greatest legal LOG2N (00 R7, 10 R23). -/
def log2nMin : Nat := 1

/-- The greatest legal LOG2N (00 R7, 10 R23). -/
def log2nMax : Nat := 12

/-- The value ID always reads (10 R21). -/
def idValue : Word := 0x51414450

/-- CTRL.LOG2N after reset (10 R61). -/
def resetLog2n : BitVec 4 := 12

/-- SRATE.SR after reset (10 R61). -/
def resetRate : BitVec 20 := 44100

/-- THRESH.T after reset (10 R61). -/
def resetThresh : BitVec 16 := 200

end Sys2Proof.Config
end

