-- ==== Sys2Proof/Machine/State.lean ====
section
/-! DEFINITION. The state of the block (10 R62) and of what drives it, as plain data, with its reset values (10 R61,
70 R300), and the reasons a step can stop. -/

namespace Sys2Proof.Machine

/-- The legal values of CTRL.WIN (10 R24). -/
inductive Window where
  /-- 0: the Hann window (42 R190). -/
  | hann
  /-- 1: the Hamming window (42 R191). -/
  | hamming
deriving DecidableEq, Repr

/-- The engine commands (00 R12, 30 R102): what STATUS.CUR_OP names while BUSY = 1 (10 R31). -/
inductive EngineCmd where
  | run | gate | spectrum | bin2freq | mapnote
deriving DecidableEq, Repr

/-- The values RESULT.CODE takes (60 R261). The values 8 to 15 are never produced. -/
inductive ResultCode where
  | none | note | belowThreshold | dcPeak | gatePass | spectrumDone | freqDone | invalidFreq
deriving DecidableEq, Repr

/-- The bits of ERR (10 R35, 60 R262). -/
inductive ErrBit where
  | illegalCmd | busyCmd | notFull | cfgErr | overflow | busyWrite | argErr
deriving DecidableEq, Repr

/-- The result registers at 0x40 to 0x74 (10 R40 to R51). -/
structure Results where
  /-- RESULT.CODE (10 R40). -/
  code : ResultCode
  /-- RESULT.SRC_OP; none reads as 0 (10 R40). -/
  srcOp : Option EngineCmd
  /-- ENERGY_HI and ENERGY_LO (10 R41). -/
  energy : BitVec 43
  /-- RMS (10 R42). -/
  rms : BitVec 16
  /-- PEAK_BIN (10 R43). -/
  peakBin : BitVec 12
  /-- PEAK_MAG_HI and PEAK_MAG_LO (10 R44). -/
  peakMag : BitVec 44
  /-- FREQ, UQ19.12 (10 R45). -/
  freq : BitVec 31
  /-- NOTE_KEY, two's complement (10 R46). -/
  noteKey : Word
  /-- NOTE_PC (10 R47). -/
  notePc : BitVec 4
  /-- NOTE_OCT, two's complement (10 R48). -/
  noteOct : Word
  /-- NOTE_NAME, ASCII (10 R49). -/
  noteName : Word
  /-- NOTE_FREQ, UQ20.12 (10 R50). -/
  noteFreq : Word
  /-- NOTE_DEV, Q20.12 (10 R51). -/
  noteDev : Word
deriving DecidableEq, Repr

/-- Every result register 0: RESULT.CODE is NONE (10 R61). -/
def Results.zero : Results where
  code := .none
  srcOp := none
  energy := 0
  rms := 0
  peakBin := 0
  peakMag := 0
  freq := 0
  noteKey := 0
  notePc := 0
  noteOct := 0
  noteName := 0
  noteFreq := 0
  noteDev := 0

/-- What the bus answered to a host transaction (20 R70). -/
inductive BusResponse where
  /-- No transaction has been answered since reset (the model's own value, log entry 2). -/
  | none
  /-- A write that was decoded; rejected and ignored writes are answered so too (20 R72, R74). -/
  | ok
  /-- A read and its data (20 R73). -/
  | data (word : Word)
  /-- The error response to a misaligned or narrow access (20 R72). -/
  | busError
deriving DecidableEq, Repr

/-- The frame buffer's contents: pairs of an index and its sample, indices strictly rising. An index that is not listed
has not been written since reset (10 R52, R62; log entries 5 and 6). -/
abbrev FrameBuffer := List (Nat × Sample)

/-- The state of the block (10 R62) and, last, the model's own fields for what the other agents will do (log entries 1
and 2). -/
structure State where
  /-- CTRL.LOG2N, legal 1 to 12 (10 R23). -/
  log2n : BitVec 4
  /-- CTRL.WIN (10 R24). -/
  win : Window
  /-- CTRL.AUTO_RUN (10 R25). -/
  autoRun : Bool
  /-- CTRL.IE_DONE (10 R26). -/
  ieDone : Bool
  /-- CTRL.IE_ERR (10 R26). -/
  ieErr : Bool
  /-- SRATE.SR in hertz, legal 1 to 1048575 (10 R27). -/
  rate : BitVec 20
  /-- THRESH.T (10 R28). -/
  thresh : BitVec 16
  /-- MAP_BIN (10 R38). -/
  mapBin : BitVec 12
  /-- MAP_FREQ, UQ19.12 (10 R39). -/
  mapFreq : BitVec 31
  /-- STATUS.BUSY and STATUS.CUR_OP: the command the engine is executing, none when idle (10 R31). -/
  engine : Option EngineCmd
  /-- STATUS.DONE (10 R32). -/
  done : Bool
  /-- STATUS.FILL, a count of 0 to N in a 13-bit field (10 R33). -/
  fill : Nat
  /-- ERR[6:0] (10 R35). -/
  err : BitVec 7
  /-- FB (10 R52). -/
  fb : FrameBuffer
  /-- The result registers (10 R40 to R51). -/
  res : Results
  /-- The model's own: what the bus answered to the host's last transaction (log entry 2). -/
  resp : BusResponse
  /-- The model's own: the transactions the host has yet to issue, next first (log entry 2). -/
  hostQ : List HostOp
  /-- The model's own: the samples the stream source has yet to hand over, next first (log entry 2). -/
  streamQ : List (BitVec 16)
  /-- The model's own: the turns the scheduler has fixed, next first (log entry 1). -/
  sched : List Agent
deriving DecidableEq, Repr

/-- The state right after reset (10 R61, 70 R300). No frame buffer entry is written and no other agent has anything
waiting (log entries 2 and 5). -/
def State.reset : State where
  log2n := Config.resetLog2n
  win := .hann
  autoRun := true
  ieDone := false
  ieErr := false
  rate := Config.resetRate
  thresh := Config.resetThresh
  mapBin := 0
  mapFreq := 0
  engine := none
  done := false
  fill := 0
  err := 0
  fb := []
  res := Results.zero
  resp := .none
  hostQ := []
  streamQ := []
  sched := []

/-- Why the model stops a step. The block itself has no trap (60 R260): no reachable state gives either. -/
inductive Fault where
  /-- Raised by the engine when it reads a frame buffer entry that no push has written since reset (10 R52, R62). Safe:
  the model says nothing of what would follow. -/
  | unwrittenSample (index : Nat)
  /-- Raised by a push at an index that the frame buffer FB[0..4095] does not have (20 R83). Safe, as above. -/
  | frameBufferRange (index : Nat)
deriving DecidableEq, Repr

/-- Why the model gives an instruction no meaning. -/
inductive Refusal where
  /-- Raised by exec's arm of an instruction that has no meaning yet. Safe: nothing is said of it. No arm raises it. -/
  | notModelled (mnemonic : String)
deriving DecidableEq, Repr

end Sys2Proof.Machine
end

