-- ==== Sys2Proof/Machine/Operands.lean ====
section
/-! DEFINITION. What a command takes its operands from: no command word has an operand field, so every operand is a
configuration register or the frame (30 R101). Values are mathematical integers (00 R9). -/

namespace Sys2Proof.Machine

/-- L, the exponent of the frame size (42_spectral_estimator.md, 10 R23). -/
def State.lexp (s : State) : Nat := s.log2n.toNat

/-- N = 2^LOG2N, the frame size (00 R10, 10 R23). -/
def State.frameSize (s : State) : Nat := 2 ^ s.lexp

/-- BUSY: the engine is executing a command (10 R31). -/
def State.busy (s : State) : Bool := s.engine.isSome

/-- T as an integer (10 R28). -/
def State.threshold (s : State) : Nat := s.thresh.toNat

/-- SR in hertz as an integer (10 R27). -/
def State.rateHz (s : State) : Nat := s.rate.toNat

/-- The operand of BIN2FREQ (10 R38, 42 R205). -/
def State.binOperand (s : State) : Nat := s.mapBin.toNat

/-- The operand of MAPNOTE, raw UQ19.12 (10 R39, 43 R244). -/
def State.freqOperand (s : State) : Nat := s.mapFreq.toNat

/-- `sext_16` of a pushed pattern: the signed value of a sample (00 R9, 30 R107, 10 R53). -/
def sampleValue (x : Sample) : Int := x.toInt

end Sys2Proof.Machine
end

