-- ==== Sys2Proof/Machine/Flags.lean ====
section
/-! DEFINITION. The block's flags (10 R60) and the encodings of the enumerations the flags and codes are read as. -/

namespace Sys2Proof.Machine

/-- The opcode of an engine command as CUR_OP and SRC_OP hold it (30 R102). -/
def EngineCmd.opcode : EngineCmd → BitVec 4
  | .run => 1
  | .gate => 2
  | .spectrum => 3
  | .bin2freq => 4
  | .mapnote => 5

/-- CUR_OP or SRC_OP with 0 for no command (10 R31, R40). -/
def opcodeField : Option EngineCmd → BitVec 4
  | none => 0
  | some op => op.opcode

/-- The number of a result code (60 R261). -/
def ResultCode.bits : ResultCode → BitVec 4
  | .none => 0
  | .note => 1
  | .belowThreshold => 2
  | .dcPeak => 3
  | .gatePass => 4
  | .spectrumDone => 5
  | .freqDone => 6
  | .invalidFreq => 7

/-- The value of CTRL.WIN (10 R24). -/
def Window.bits : Window → BitVec 2
  | .hann => 0
  | .hamming => 1

/-- The place of an error bit in ERR (10 R35, 60 R262). -/
def ErrBit.index : ErrBit → Nat
  | .illegalCmd => 0
  | .busyCmd => 1
  | .notFull => 2
  | .cfgErr => 3
  | .overflow => 4
  | .busyWrite => 5
  | .argErr => 6

/-- ERR with one error bit set and no other. -/
def ErrBit.mask (b : ErrBit) : BitVec 7 := 1#7 <<< b.index

/-- STATUS.FULL = (FILL = N) (10 R33). -/
def State.full (s : State) : Bool := decide (s.fill = s.frameSize)

/-- The interrupt output and STATUS.IRQ (60 R268, 10 R34). -/
def State.irq (s : State) : Bool := (s.done && s.ieDone) || (decide (s.err ≠ 0) && s.ieErr)

/-- The ready output of the stream port (40 R143, 10 R58). -/
def State.sReady (s : State) : Bool := !s.busy && decide (s.fill < s.frameSize)

end Sys2Proof.Machine
end

