-- ==== Sys2Proof/Machine/Ops.lean ====
section
/-! DEFINITION. The shared operations: the frame buffer's reads and writes, raising an error bit, accepting a command,
pushing a sample, publishing results. The block has no trap (60 R260): what another hardware's exception entry is, here,
is `State.raise` (00 R10, 60 R263); there is no return from it (60 R272). -/

namespace Sys2Proof.Machine

/-- FB[i]; none when no push has written it since reset (10 R52, R62). -/
def FrameBuffer.read : FrameBuffer → Nat → Option Sample
  | [], _ => none
  | (k, v) :: rest, i => if k = i then some v else FrameBuffer.read rest i

/-- FB[i] <- v, keeping the indices strictly rising. -/
def FrameBuffer.write : FrameBuffer → Nat → Sample → FrameBuffer
  | [], i, v => [(i, v)]
  | (k, x) :: rest, i, v =>
    if i < k then (i, v) :: (k, x) :: rest
    else if i = k then (i, v) :: rest
    else (k, x) :: FrameBuffer.write rest i v

/-- Every index listed is at least `low`, and the indices strictly rise. -/
def FrameBuffer.risesFrom : Nat → FrameBuffer → Bool
  | _, [] => true
  | low, (k, _) :: rest => decide (low ≤ k) && FrameBuffer.risesFrom (k + 1) rest

/-- The canonical form: indices strictly rising, each below NMAX (00 R7, 20 R83). An unlisted index reads as nothing,
so no entry can equal it. -/
def FrameBuffer.wf (fb : FrameBuffer) : Bool :=
  FrameBuffer.risesFrom 0 fb && fb.all (fun e => decide (e.1 < Config.nMax))

/-- `count` samples from index `i` on, in order, or the first of them that was never written (10 R62). -/
def FrameBuffer.readFrom (fb : FrameBuffer) : (count i : Nat) → Except Fault (List Int)
  | 0, _ => .ok []
  | n + 1, i =>
    match FrameBuffer.read fb i with
    | none => .error (.unwrittenSample i)
    | some v =>
      match FrameBuffer.readFrom fb n (i + 1) with
      | .ok vs => .ok (sampleValue v :: vs)
      | .error e => .error e

/-- The frame the engine reads: FB[0..N-1] as signed samples (10 R52, 40 R133). -/
def State.frame (s : State) : Except Fault (List Int) := FrameBuffer.readFrom s.fb s.frameSize 0

/-- `raise Err(BIT)`: set one sticky bit; the rejected access has no other effect (00 R10, 60 R263). -/
def State.raise (b : ErrBit) (s : State) : State := { s with err := s.err ||| b.mask }

/-- `Accept(op)`: the engine starts a command (40 R131). -/
def State.accept (op : EngineCmd) (s : State) : State := { s with engine := some op, done := false }

/-- FILL <- 0: the samples held are discarded; FB keeps its contents (40 R136). -/
def State.emptyFrame (s : State) : State := { s with fill := 0 }

/-- RUN starts by itself when the frame is full and AUTO_RUN = 1 (40 R142). -/
def State.autoStart (s : State) : State := if s.full && s.autoRun then s.accept .run else s

/-- FB[FILL] <- v and FILL <- FILL + 1 (40 R142). -/
def State.store (v : Sample) (s : State) : State :=
  { s with fb := FrameBuffer.write s.fb s.fill v, fill := s.fill + 1 }

/-- `Push(s)` (40 R142). The frame buffer has 4096 entries (20 R83): a push at another index, which no reachable state
makes, faults (log entry 6). -/
def State.push (v : Sample) (s : State) : Host.Outcome State Fault Refusal :=
  if s.fill < Config.nMax then .next (s.store v).autoStart else .fault (.frameBufferRange s.fill)

/-- `RegPush(s)`: a push from the host, dropped with OVERFLOW when the engine is busy or the frame is full (40 R139). -/
def State.regPush (v : Sample) (s : State) : Host.Outcome State Fault Refusal :=
  if s.busy || s.full then .next (s.raise .overflow) else s.push v

/-- Go on from a next state; a fault or a refusal stays what it is. -/
def andThen (o : Host.Outcome State Fault Refusal) (k : State → Host.Outcome State Fault Refusal) :
    Host.Outcome State Fault Refusal :=
  match o with
  | .next s => k s
  | .fault r => .fault r
  | .refused r => .refused r

/-- A command other than NOP is rejected with BUSY_CMD while the engine is busy (40 R130). -/
def State.unlessBusy (s : State) (k : State → State) : State :=
  if s.busy then s.raise .busyCmd else k s

/-- RUN, GATE and SPECTRUM are rejected with NOT_FULL unless FILL = N (40 R130). -/
def State.ifFull (s : State) (k : State → State) : State :=
  if s.full then k s else s.raise .notFull

/-- `publish(r, op)` and the other writes of a completion (40 R133, R134): every result register at once, SRC_OP the
command, BUSY and CUR_OP 0, DONE 1; RUN also empties the frame. -/
def State.publish (op : EngineCmd) (r : Results) (s : State) : State :=
  { s with
    res := { r with srcOp := some op }
    fill := if op = .run then 0 else s.fill
    engine := none
    done := true }

/-- The largest `r` below `2^k` added bit by bit with `r * r ≤ x`, from the bit `k - 1` down. -/
def isqrtBits (x : Nat) : (k r : Nat) → Nat
  | 0, r => r
  | k + 1, r => if (r + 2 ^ k) * (r + 2 ^ k) ≤ x then isqrtBits x k (r + 2 ^ k) else isqrtBits x k r

/-- `isqrt(x)`: the largest integer r with r*r <= x (00 R10). -/
def isqrt (x : Nat) : Nat := isqrtBits x (Nat.log2 x + 1) 0

/-- `RoundShift(x, n)`: floor((x + 2^(n-1)) / 2^n), and x for n = 0 (00 R10). -/
def roundShift (x : Int) : Nat → Int
  | 0 => x
  | n + 1 => (x + 2 ^ n) / 2 ^ (n + 1)

end Sys2Proof.Machine
end

