-- ==== Sys2Proof/Machine/Control.lean ====
section
/-! DEFINITION. The immediate commands NOP and FLUSH and the three sample pushes (40_control.md). -/

namespace Sys2Proof.Machine

/-- NOP (40 R135): no state changes, even while BUSY = 1. -/
def execNop (s : State) : Host.Outcome State Fault Refusal := .next s

/-- FLUSH (40 R136): FILL <- 0, or BUSY_CMD while BUSY = 1. -/
def execFlush (s : State) : Host.Outcome State Fault Refusal := .next (s.unlessBusy State.emptyFrame)

/-- SAMPLE_PUSH (40 R139): bits [31:16] of the word are ignored. -/
def execSamplePush (sample _ignored : BitVec 16) (s : State) : Host.Outcome State Fault Refusal :=
  s.regPush sample

/-- SAMPLE_PUSH2 (40 R140): the low half, then the high half, in one step. -/
def execSamplePush2 (first second : BitVec 16) (s : State) : Host.Outcome State Fault Refusal :=
  andThen (s.regPush first) fun s => s.regPush second

/-- STREAM_PUSH (40 R141): a handshake pushes the sample. While s_ready = 0 there is no handshake: the sample stays with
the source, next to be offered, held and not dropped (log entry 10). -/
def execStreamPush (sample : BitVec 16) (s : State) : Host.Outcome State Fault Refusal :=
  if s.sReady then s.push sample else .next { s with streamQ := sample :: s.streamQ }

end Sys2Proof.Machine
end

