-- ==== Sys2Proof/Machine/Rom.lean ====
section
/-! DEFINITION. The constant tables of the block (10 R57). The note tables are the spec's printed numbers; the window
and twiddle tables are computed from the spec's formulas in fixed point with 64 fraction bits, which no rounding of the
spec comes near enough to feel (42 R192, R195; log entry 9). -/

namespace Sys2Proof.Machine

/-- floor(2^64 * pi). -/
def piFixed : Nat := 57952155664616982739

/-- The number of Taylor terms after the first. -/
def taylorTerms : Nat := 11

/-- 1 - y/((a+1)(a+2)) * (1 - y/((a+3)(a+4)) * (...)) with `k` factors, all with 64 fraction bits. -/
def taylorFactor (y : Nat) : (k a : Nat) → Nat
  | 0, _ => 2 ^ 64
  | k + 1, a => 2 ^ 64 - y * taylorFactor y k (a + 2) / 2 ^ 64 / ((a + 1) * (a + 2))

/-- The angle of `num/den` of a turn, in radians with 64 fraction bits. -/
def turnToRadians (num den : Nat) : Nat := 2 * piFixed * num / den

/-- cos of an angle of at most one eighth of a turn, with 64 fraction bits. -/
def cosOctant (num den : Nat) : Nat :=
  let x := turnToRadians num den
  taylorFactor (x * x / 2 ^ 64) taylorTerms 0

/-- sin of an angle of at most one eighth of a turn, with 64 fraction bits. -/
def sinOctant (num den : Nat) : Nat :=
  let x := turnToRadians num den
  x * taylorFactor (x * x / 2 ^ 64) taylorTerms 1 / 2 ^ 64

/-- cos of an angle of at most a quarter turn: past one eighth, the sine of the rest of the quarter. -/
def cosQuarter (num den : Nat) : Nat :=
  if 8 * num ≤ den then cosOctant num den else sinOctant (den - 4 * num) (4 * den)

/-- cos(2 pi num / den) with 64 fraction bits, for any `num` and `den > 0`: by whole turns, by symmetry about the half
turn, and by sign past a quarter turn. -/
def cosTurn (num den : Nat) : Int :=
  let n := min (num % den) (den - num % den)
  if 4 * n ≤ den then (cosQuarter n den : Int) else -(cosQuarter (den - 2 * n) (2 * den) : Int)

/-- The Hann coefficient c_i = round(2^16 * (1 - cos(2 pi i / (N-1))) / 2) (42 R190, R192). -/
def hannCoeff (n i : Nat) : Int := roundShift (2 ^ 15 * (2 ^ 64 - cosTurn i (n - 1))) 64

/-- The Hamming coefficient c_i = round(2^16 * (27/50 - 23/50 * cos(2 pi i / (N-1)))) (42 R191, R192). -/
def hammingCoeff (n i : Nat) : Int :=
  (2 ^ 17 * (27 * 2 ^ 64 - 23 * cosTurn i (n - 1)) + 50 * 2 ^ 64) / (100 * 2 ^ 64)

/-- The window ROM: coefficient i of the window for frame size n, UQ1.16 (42 R192). -/
def windowCoeff : Window → (n i : Nat) → Int
  | .hann => hannCoeff
  | .hamming => hammingCoeff

/-- TWC[j] = round(2^15 * cos(2 pi j / 4096)) (42 R195). -/
def twiddleCos (j : Nat) : Int := roundShift (2 ^ 15 * cosTurn j 4096) 64

/-- TWS[j] = round(2^15 * sin(2 pi j / 4096)), the sine as the cosine a quarter turn earlier (42 R195). -/
def twiddleSin (j : Nat) : Int := roundShift (2 ^ 15 * cosTurn (j + 3072) 4096) 64

/-- TH: the mantissas at which the rounded key steps up (43 R235). -/
def noteThresholds : List Nat :=
  [4517966353, 4786618612, 5071245766, 5372797732, 5692280910, 6030761547,
   6389369290, 6769300959, 7171824541, 7598283420, 8050100864, 8528784771]

/-- CF: the canonical frequencies of the twelve steps of one octave (43 R241). -/
def canonicalFreqs : List Nat :=
  [1097337155, 1162588218, 1231719311, 1304961152, 1382558180, 1464769368,
   1551869087, 1644148025, 1741914154, 1845493760, 1955232530, 2071496706]

/-- The name ROM: NOTE_NAME of each pitch class, indexed by K mod 12 literally (43 R231, R240; 90 C1). -/
def noteNames : List Word :=
  [0x00000043, 0x00002343, 0x00000044, 0x00002344, 0x00000045, 0x00000046,
   0x00002346, 0x00000047, 0x00002347, 0x00000041, 0x00002341, 0x00000042]

end Sys2Proof.Machine
end

