-- ==== Sys2Proof/Machine/SpectralEstimator.lean ====
section
/-! DEFINITION. The spectral estimator (42_spectral_estimator.md): window, fixed-point radix-2 transform, peak search and
bin frequency, and the meanings of SPECTRUM and BIN2FREQ. Working values are exact integers (42 R199). The spectrum RAM
is no state: the transform is a pure function of the frame (10 R54, 42 R207). -/

namespace Sys2Proof.Machine

/-- One entry of the spectrum RAM (42 R196). -/
structure Cplx where
  re : Int
  im : Int
deriving DecidableEq, Repr

/-- Componentwise sum, exact (42 R197). -/
def Cplx.plus (a b : Cplx) : Cplx := ⟨a.re + b.re, a.im + b.im⟩

/-- Componentwise difference, exact (42 R197). -/
def Cplx.minus (a b : Cplx) : Cplx := ⟨a.re - b.re, a.im - b.im⟩

/-- `TwMul((br, bi), c, s)`: each component rounded once (42 R198). -/
def twMul (b : Cplx) (c s : Int) : Cplx :=
  ⟨roundShift (b.re * c + b.im * s) 15, roundShift (b.im * c - b.re * s) 15⟩

/-- The windowed samples xw_i = s_i * c_i, exact (42 R194). -/
def windowed (w : Window) (l : Nat) (frame : List Int) : List Int :=
  List.zipWith (fun x i => x * windowCoeff w (2 ^ l) i) frame (List.range (2 ^ l))

/-- `bitrev_L(n)`: the L low bits of n reversed (00 R10). -/
def bitrev : (l n : Nat) → Nat
  | 0, _ => 0
  | l + 1, n => n % 2 * 2 ^ l + bitrev l (n / 2)

/-- The load: every entry of the spectrum RAM from the windowed frame, in bit-reversed order (42 R196). -/
def loadSpectrum (l : Nat) (xw : List Int) : List Cplx :=
  (List.range (2 ^ l)).map fun n => ⟨xw.getD (bitrev l n) 0, 0⟩

/-- The twiddle pairs (TWC[j*step], TWS[j*step]) of a stage's h butterflies (42 R197). -/
def stageTwiddles (h : Nat) : List (Int × Int) :=
  (List.range h).map fun j => (twiddleCos (j * (4096 / (2 * h))), twiddleSin (j * (4096 / (2 * h))))

/-- The butterflies of one group: u + t in its lower half, u - t in its upper half (42 R197). -/
def butterflyGroup (tws : List (Int × Int)) (us vs : List Cplx) : List Cplx :=
  let ts := List.zipWith (fun v tw => twMul v tw.1 tw.2) vs tws
  List.zipWith Cplx.plus us ts ++ List.zipWith Cplx.minus us ts

/-- The groups of one stage in order; the butterflies of a stage touch disjoint entries (42 R197). -/
def stageGroups (h : Nat) (tws : List (Int × Int)) : (groups : Nat) → List Cplx → List Cplx
  | 0, _ => []
  | g + 1, a =>
    butterflyGroup tws (a.take h) ((a.drop h).take h) ++ stageGroups h tws g (a.drop (2 * h))

/-- Stage st of the transform of 2^l entries: groups of m = 2^st, h = m/2, twiddle step 4096/m (42 R197). -/
def fftStage (l st : Nat) (a : List Cplx) : List Cplx :=
  stageGroups (2 ^ (st - 1)) (stageTwiddles (2 ^ (st - 1))) (2 ^ (l - st)) a

/-- The stages 1 to st, in order (42 R197). -/
def fftStages (l : Nat) : (st : Nat) → List Cplx → List Cplx
  | 0, a => a
  | st + 1, a => fftStage l (st + 1) (fftStages l st a)

/-- `FFT()` on the loaded windowed frame: X_hw (42 R196, R197). -/
def fft (w : Window) (l : Nat) (frame : List Int) : List Cplx :=
  fftStages l l (loadSpectrum l (windowed w l frame))

/-- P_k = re^2 + im^2, exact (42 R201). -/
def Cplx.power (x : Cplx) : Nat := (x.re * x.re + x.im * x.im).toNat

/-- The strict-greater search from bin k on: the earliest bin wins ties (42 R202). -/
def peakSearch : (powers : List Nat) → (k best bestP : Nat) → Nat × Nat
  | [], _, best, bestP => (best, bestP)
  | p :: ps, k, best, bestP =>
    if bestP < p then peakSearch ps (k + 1) k p else peakSearch ps (k + 1) best bestP

/-- The search over the lower half of the spectrum: the bin and its P (42 R202). -/
def peakOfPowers (powers : List Nat) : Nat × Nat :=
  match powers with
  | [] => (0, 0)
  | p0 :: ps => peakSearch ps 1 0 p0

/-- `SpectralPeak(WIN)`: (PEAK_BIN, PEAK_MAG) (42 R202, R203). -/
def spectralPeak (w : Window) (l : Nat) (frame : List Int) : Nat × Nat :=
  let best := peakOfPowers (((fft w l frame).take (2 ^ l / 2)).map Cplx.power)
  (best.1, isqrt best.2)

/-- `BinFreq(k)` = k * SR * 2^(12 - L), raw UQ19.12 (42 R204). -/
def binFreq (k rate l : Nat) : Nat := k * rate * 2 ^ (12 - l)

/-- `ExecSpectrum()` (42 R206). -/
def spectrumResults (s : State) : Except Fault Results :=
  match s.frame with
  | .error f => .error f
  | .ok frame =>
    let peak := spectralPeak s.win s.lexp frame
    .ok { Results.zero with
      code := .spectrumDone
      peakBin := BitVec.ofNat 12 peak.1
      peakMag := BitVec.ofNat 44 peak.2
      freq := BitVec.ofNat 31 (binFreq peak.1 s.rateHz s.lexp) }

/-- `ExecBin2Freq()` (42 R205). -/
def bin2freqResults (s : State) : Results :=
  { Results.zero with
    code := .freqDone
    freq := BitVec.ofNat 31 (binFreq s.binOperand s.rateHz s.lexp) }

/-- SPECTRUM (42 R206), the CMD write: accepted when the engine is idle and the frame is full (40 R130). -/
def execSpectrum (s : State) : Host.Outcome State Fault Refusal :=
  .next (s.unlessBusy fun s => s.ifFull fun s => s.accept .spectrum)

/-- BIN2FREQ (42 R205), the CMD write: accepted when the engine is idle and MAP_BIN < N/2, else ARG_ERR (40 R130). -/
def execBin2freq (s : State) : Host.Outcome State Fault Refusal :=
  .next (s.unlessBusy fun s =>
    if s.frameSize / 2 ≤ s.binOperand then s.raise .argErr else s.accept .bin2freq)

end Sys2Proof.Machine
end

