-- ==== Sys2Proof/Machine/NoteMapper.lean ====
section
/-! DEFINITION. The note mapper (43_note_mapper.md): frequency to equal-tempered key, pitch class, octave, canonical
frequency and deviation by the LUT datapath, and the meaning of MAPNOTE. It reads only the constant tables (43 R246). -/

namespace Sys2Proof.Machine

/-- p = bitlength(v) - 1: 2^p <= v < 2^(p+1) for v > 0 (43 R234). -/
def notePos (v : Nat) : Nat := Nat.log2 v

/-- MANT = v << (32 - p): v with its leading one at bit 32 (43 R234). -/
def noteMant (v : Nat) : Nat := v * 2 ^ (32 - notePos v)

/-- r: how many thresholds the mantissa reaches, 0 to 12 (43 R236). -/
def noteCount (v : Nat) : Nat := noteThresholds.countP fun th => decide (th ≤ noteMant v)

/-- (q, rr): a count of 12 belongs to the next octave's step 0 (43 R236). -/
def noteStep (v : Nat) : Nat × Nat :=
  if noteCount v = 12 then (notePos v + 1, 0) else (notePos v, noteCount v)

/-- The key number K = 12 q - 200 + rr (43 R236). -/
def keyOf (v : Nat) : Int := 12 * ((noteStep v).1 : Int) - 200 + ((noteStep v).2 : Int)

/-- PC = K mod 12, never negative (43 R231, R239). -/
def pitchClassOf (v : Nat) : Nat := (keyOf v % 12).toNat

/-- OCT = K div 12, floor (43 R232, R239). -/
def octaveOf (v : Nat) : Int := keyOf v / 12

/-- NF, raw UQ20.12 (43 R241). -/
def canonicalOf (v : Nat) : Int :=
  let q := (noteStep v).1
  let cf : Int := canonicalFreqs.getD (noteStep v).2 0
  if q < 30 then roundShift cf (30 - q) else cf * 2 ^ (q - 30)

/-- DEV = v - NF, raw Q20.12 (43 R242). -/
def deviationOf (v : Nat) : Int := (v : Int) - canonicalOf v

/-- NOTE_NAME: the name ROM at PC (43 R231, R240). -/
def nameOf (v : Nat) : Word := noteNames.getD (pitchClassOf v) 0

/-- The NOTE outcome for the frequency v > 0, over results already gathered (41 R165, 43 R244). -/
def Results.withNote (r : Results) (v : Nat) : Results :=
  { r with
    code := .note
    freq := BitVec.ofNat 31 v
    noteKey := BitVec.ofInt 32 (keyOf v)
    notePc := BitVec.ofNat 4 (pitchClassOf v)
    noteOct := BitVec.ofInt 32 (octaveOf v)
    noteName := nameOf v
    noteFreq := BitVec.ofInt 32 (canonicalOf v)
    noteDev := BitVec.ofInt 32 (deviationOf v) }

/-- `ExecMapNote()` (43 R244): a zero operand completes as INVALID_FREQ with every other result 0 (43 R245). -/
def mapnoteResults (s : State) : Results :=
  if s.freqOperand = 0 then { Results.zero with code := .invalidFreq }
  else Results.zero.withNote s.freqOperand

/-- MAPNOTE (43 R244), the CMD write: accepted when the engine is idle, with no other check (40 R130). -/
def execMapnote (s : State) : Host.Outcome State Fault Refusal :=
  .next (s.unlessBusy fun s => s.accept .mapnote)

end Sys2Proof.Machine
end

