-- ==== Sys2Proof/Machine/FrameProcessor.lean ====
section
/-! DEFINITION. The frame processor (41_frame_processor.md): the volume gate, and the meanings of GATE and RUN. An engine
command has two halves: what its CMD write does (`execGate`, `execRun`: acceptance, 40 R130 and R131) and what the
engine computes at completion (`gateResults`, `runResults`: 40 R133). -/

namespace Sys2Proof.Machine

/-- `Energy()`: the exact sum of the squared samples (41 R160). -/
def energy (frame : List Int) : Nat := (frame.map fun x => (x * x).toNat).sum

/-- The RMS register value isqrt(Energy() div N) (41 R161). -/
def rmsOf (e n : Nat) : Nat := isqrt (e / n)

/-- The gate is open when Energy() >= T*T*N (41 R162). -/
def gateOpen (e t n : Nat) : Bool := decide (t * t * n ≤ e)

/-- `ExecGate()` (41 R164). -/
def gateResults (s : State) : Except Fault Results :=
  match s.frame with
  | .error f => .error f
  | .ok frame =>
    let e := energy frame
    .ok { Results.zero with
      code := if gateOpen e s.threshold s.frameSize then .gatePass else .belowThreshold
      energy := BitVec.ofNat 43 e
      rms := BitVec.ofNat 16 (rmsOf e s.frameSize) }

/-- The results of a RUN whose gate is open and whose peak is bin k of magnitude mag (41 R165): at bin 0 no note is
mapped (41 R166). -/
def runOpenResults (s : State) (e k mag : Nat) : Results :=
  let gated := { Results.zero with
    energy := BitVec.ofNat 43 e
    rms := BitVec.ofNat 16 (rmsOf e s.frameSize)
    peakBin := BitVec.ofNat 12 k
    peakMag := BitVec.ofNat 44 mag }
  if k = 0 then { gated with code := .dcPeak }
  else gated.withNote (binFreq k s.rateHz s.lexp)

/-- `ExecRun()` (41 R165). A closed gate computes nothing further. -/
def runResults (s : State) : Except Fault Results :=
  match s.frame with
  | .error f => .error f
  | .ok frame =>
    let e := energy frame
    if gateOpen e s.threshold s.frameSize then
      let peak := spectralPeak s.win s.lexp frame
      .ok (runOpenResults s e peak.1 peak.2)
    else
      .ok { Results.zero with
        code := .belowThreshold
        energy := BitVec.ofNat 43 e
        rms := BitVec.ofNat 16 (rmsOf e s.frameSize) }

/-- GATE (41 R164), the CMD write: accepted when the engine is idle and the frame is full (40 R130). -/
def execGate (s : State) : Host.Outcome State Fault Refusal :=
  .next (s.unlessBusy fun s => s.ifFull fun s => s.accept .gate)

/-- RUN (41 R165), the CMD write: accepted when the engine is idle and the frame is full (40 R130). -/
def execRun (s : State) : Host.Outcome State Fault Refusal :=
  .next (s.unlessBusy fun s => s.ifFull fun s => s.accept .run)

end Sys2Proof.Machine
end

