-- ==== Sys2Proof/Machine/Dispatch.lean ====
section
/-! DEFINITION. The dispatch: one arm per instruction of the opcode table, each one call of its meaning. -/

namespace Sys2Proof.Machine

def exec (i : Instr) (s : State) : Host.Outcome State Fault Refusal :=
  match i with
  | .nop => Sys2Proof.Machine.execNop s
  | .run => Sys2Proof.Machine.execRun s
  | .gate => Sys2Proof.Machine.execGate s
  | .spectrum => Sys2Proof.Machine.execSpectrum s
  | .bin2freq => Sys2Proof.Machine.execBin2freq s
  | .mapnote => Sys2Proof.Machine.execMapnote s
  | .flush => Sys2Proof.Machine.execFlush s
  | .samplePush sample ignored => Sys2Proof.Machine.execSamplePush sample ignored s
  | .samplePush2 first second => Sys2Proof.Machine.execSamplePush2 first second s
  | .streamPush sample => Sys2Proof.Machine.execStreamPush sample s

end Sys2Proof.Machine
end

