-- ==== Sys2Proof/Machine/Bus.lean ====
section
/-! DEFINITION. The host agent: address decode, register reads, configuration and W1C writes, and the writes that issue
an instruction (20_memory.md, 40_control.md). -/

namespace Sys2Proof.Machine

/-- The register at a word offset; none for a reserved offset. Only off[7:2] is decoded (10 R20, 20 R71). -/
def regAt (off : BitVec 8) : Option Reg :=
  match off.toNat / 4 with
  | 0x00 => some .id
  | 0x01 => some .ctrl
  | 0x02 => some .srate
  | 0x03 => some .thresh
  | 0x04 => some .cmd
  | 0x05 => some .status
  | 0x06 => some .err
  | 0x07 => some .samplePush
  | 0x08 => some .samplePush2
  | 0x09 => some .mapBin
  | 0x0A => some .mapFreq
  | 0x10 => some .result
  | 0x11 => some .energyLo
  | 0x12 => some .energyHi
  | 0x13 => some .rms
  | 0x14 => some .peakBin
  | 0x15 => some .peakMagLo
  | 0x16 => some .peakMagHi
  | 0x17 => some .freq
  | 0x18 => some .noteKey
  | 0x19 => some .notePc
  | 0x1A => some .noteOct
  | 0x1B => some .noteName
  | 0x1C => some .noteFreq
  | 0x1D => some .noteDev
  | _ => none

/-- The CTRL word (10 R22, 30 R105). -/
def ctrlWord (s : State) : Word :=
  0#14 ++ BitVec.ofBool s.ieErr ++ BitVec.ofBool s.ieDone ++ 0#7 ++ BitVec.ofBool s.autoRun ++ 0#2 ++
    s.win.bits ++ s.log2n

/-- The STATUS word (10 R30). -/
def statusWord (s : State) : Word :=
  0#3 ++ BitVec.ofNat 13 s.fill ++ 0#8 ++ opcodeField s.engine ++ BitVec.ofBool s.irq ++
    BitVec.ofBool s.full ++ BitVec.ofBool s.done ++ BitVec.ofBool s.busy

/-- The RESULT word (10 R40, 30 R109). -/
def resultWord (r : Results) : Word := 0#20 ++ opcodeField r.srcOp ++ 0#4 ++ r.code.bits

/-- `RegisterRead(off)` (20 R73): write-only registers and reserved offsets read 0. -/
def registerRead (r : Option Reg) (s : State) : Word :=
  match r with
  | some .id => Config.idValue
  | some .ctrl => ctrlWord s
  | some .srate => s.rate.setWidth 32
  | some .thresh => s.thresh.setWidth 32
  | some .status => statusWord s
  | some .err => s.err.setWidth 32
  | some .mapBin => s.mapBin.setWidth 32
  | some .mapFreq => s.mapFreq.setWidth 32
  | some .result => resultWord s.res
  | some .energyLo => s.res.energy.extractLsb' 0 32
  | some .energyHi => (s.res.energy.extractLsb' 32 11).setWidth 32
  | some .rms => s.res.rms.setWidth 32
  | some .peakBin => s.res.peakBin.setWidth 32
  | some .peakMagLo => s.res.peakMag.extractLsb' 0 32
  | some .peakMagHi => (s.res.peakMag.extractLsb' 32 12).setWidth 32
  | some .freq => s.res.freq.setWidth 32
  | some .noteKey => s.res.noteKey
  | some .notePc => s.res.notePc.setWidth 32
  | some .noteOct => s.res.noteOct
  | some .noteName => s.res.noteName
  | some .noteFreq => s.res.noteFreq
  | some .noteDev => s.res.noteDev
  | some .cmd => 0
  | some .samplePush => 0
  | some .samplePush2 => 0
  | none => 0

/-- A configuration write is rejected with BUSY_WRITE while BUSY = 1 (40 R137). -/
def State.unlessBusyWrite (s : State) (k : State → State) : State :=
  if s.busy then s.raise .busyWrite else k s

/-- The window a CTRL word asks for; none for the illegal values 2 and 3 (10 R24). -/
def windowOf (w : Word) : Option Window :=
  match (w.extractLsb' 4 2).toNat with
  | 0 => some .hann
  | 1 => some .hamming
  | _ => none

/-- The CTRL case of `ConfigWrite` (40 R137): rejected whole with CFG_ERR on an illegal field; a changed LOG2N empties
the frame buffer. -/
def writeCtrl (w : Word) (s : State) : State :=
  let l := w.extractLsb' 0 4
  match windowOf w with
  | none => s.raise .cfgErr
  | some win =>
    if l.toNat < Config.log2nMin ∨ Config.log2nMax < l.toNat then s.raise .cfgErr
    else
      { s with
        fill := if l = s.log2n then s.fill else 0
        log2n := l
        win := win
        autoRun := w.getLsbD 8
        ieDone := w.getLsbD 16
        ieErr := w.getLsbD 17 }

/-- The SRATE case of `ConfigWrite` (40 R137): a zero rate is rejected with CFG_ERR. -/
def writeSrate (w : Word) (s : State) : State :=
  if w.extractLsb' 0 20 = 0#20 then s.raise .cfgErr else { s with rate := w.extractLsb' 0 20 }

/-- `StatusWrite(w)`: writing 1 to bit 1 clears DONE; every other bit is ignored (40 R138). -/
def writeStatus (w : Word) (s : State) : State :=
  if w.getLsbD 1 then { s with done := false } else s

/-- `ErrWrite(w)`: writing 1 to a bit clears it (40 R138). -/
def writeErr (w : Word) (s : State) : State := { s with err := s.err &&& ~~~(w.extractLsb' 0 7) }

/-- An instruction arrives: run what it decodes to; a CMD word that does not decode raises ILLEGAL_CMD and does nothing
else, even while BUSY = 1 (30 R103, 40 R130). -/
def issue (q : Issue) (s : State) : Host.Outcome State Fault Refusal :=
  match decode q with
  | .ok i => exec i s
  | .reject _ => .next (s.raise .illegalCmd)

/-- `RegisterWrite(off, data)` (20 R72): instructions, configuration, W1C; read-only registers and reserved offsets are
ignored (20 R74). -/
def registerWrite (r : Option Reg) (w : Word) (s : State) : Host.Outcome State Fault Refusal :=
  match r with
  | some .cmd => issue (.cmd w) s
  | some .samplePush => issue (.samplePush w) s
  | some .samplePush2 => issue (.samplePush2 w) s
  | some .ctrl => .next (s.unlessBusyWrite (writeCtrl w))
  | some .srate => .next (s.unlessBusyWrite (writeSrate w))
  | some .thresh => .next (s.unlessBusyWrite fun s => { s with thresh := w.extractLsb' 0 16 })
  | some .mapBin => .next (s.unlessBusyWrite fun s => { s with mapBin := w.extractLsb' 0 12 })
  | some .mapFreq => .next (s.unlessBusyWrite fun s => { s with mapFreq := w.extractLsb' 0 31 })
  | some .status => .next (writeStatus w s)
  | some .err => .next (writeErr w s)
  | some .id | some .result | some .energyLo | some .energyHi | some .rms | some .peakBin
  | some .peakMagLo | some .peakMagHi | some .freq | some .noteKey | some .notePc | some .noteOct
  | some .noteName | some .noteFreq | some .noteDev | none => .next s

/-- One host transaction (20 R70 to R73). A misaligned access, or a write that is not of four bytes, is answered with
the error response and changes nothing (20 R72); the block goes on (log entry 11). -/
def hostAccess (op : HostOp) (s : State) : Host.Outcome State Fault Refusal :=
  match op with
  | .write off size data =>
    if off.toNat % 4 = 0 ∧ size = 4 then registerWrite (regAt off) data { s with resp := .ok }
    else .next { s with resp := .busError }
  | .read off =>
    if off.toNat % 4 = 0 then .next { s with resp := .data (registerRead (regAt off) s) }
    else .next { s with resp := .busError }

end Sys2Proof.Machine
end

