-- ==== Sys2Proof/Machine/Engine.lean ====
section
/-! DEFINITION. The engine agent: its one step, the completion of the accepted command (40 R132, R133). -/

namespace Sys2Proof.Machine

/-- `Execute(op)`: a pure function of the frame and the configuration (40 R133). -/
def execute (op : EngineCmd) (s : State) : Except Fault Results :=
  match op with
  | .run => runResults s
  | .gate => gateResults s
  | .spectrum => spectrumResults s
  | .bin2freq => .ok (bin2freqResults s)
  | .mapnote => .ok (mapnoteResults s)

/-- `Complete()` (40 R133). With BUSY = 0 the engine has no step (40 R132): its turn passes (log entry 3). -/
def complete (s : State) : Host.Outcome State Fault Refusal :=
  match s.engine with
  | none => .next s
  | some op =>
    match execute op s with
    | .ok r => .next (s.publish op r)
    | .error f => .fault f

end Sys2Proof.Machine
end

