-- ==== Sys2Proof/Machine/Agents.lean ====
section
/-! DEFINITION. The agents' turns (00 R6): who moves next, and what its step is. Every interleaving is allowed (93 U20):
the schedule in State fixes it, and once it is used up the agents that have a step move in a fixed order in which a busy
engine is first, so that an accepted command always completes (70 R315; log entry 1). -/

namespace Sys2Proof.Machine

/-- Whose turn is next: the schedule's, else the engine while it is busy, else the host, else the stream source; nobody
when none has anything to do (70 R302; log entries 1 and 3). -/
def State.nextAgent (s : State) : Option Agent :=
  match s.sched with
  | a :: _ => some a
  | [] =>
    if s.busy then some .engine
    else if !s.hostQ.isEmpty then some .host
    else if !s.streamQ.isEmpty then some .stream
    else none

/-- The host's turn: its next transaction; with none waiting the turn passes (log entry 3). -/
def hostTurn (s : State) : Host.Outcome State Fault Refusal :=
  match s.hostQ with
  | [] => .next s
  | op :: rest => hostAccess op { s with hostQ := rest }

/-- The stream source's turn: it offers its next sample; with none waiting the turn passes (log entries 3 and 10). -/
def streamTurn (s : State) : Host.Outcome State Fault Refusal :=
  match s.streamQ with
  | [] => .next s
  | d :: rest => issue (.stream d) { s with streamQ := rest }

/-- The deassertion of reset (70 R300, R301): every piece of the block's state at its reset value, a command in flight
abandoned, no bus response. What the other agents have waiting is not the block's and stays (log entry 12). -/
def resetTurn (s : State) : State :=
  { State.reset with hostQ := s.hostQ, streamQ := s.streamQ, sched := s.sched }

/-- One agent's step (00 R6). -/
def takeTurn (a : Agent) (s : State) : Host.Outcome State Fault Refusal :=
  match a with
  | .host => hostTurn s
  | .stream => streamTurn s
  | .engine => complete s
  | .reset => .next (resetTurn s)

/-- The state with the turn at the head of the schedule used. -/
def State.turnUsed (s : State) : State := { s with sched := s.sched.tail }

/-- The next turn given to the host, to write `w` at `off`. -/
def State.withHostWrite (off : BitVec 8) (w : Word) (s : State) : State :=
  { s with hostQ := .write off 4 w :: s.hostQ, sched := .host :: s.sched }

/-- The next turn given to the stream source, to offer `d`. -/
def State.withStreamOffer (d : BitVec 16) (s : State) : State :=
  { s with streamQ := d :: s.streamQ, sched := .stream :: s.sched }

/-- The state in which the next turn issues a table row's bits at the port `tablePort` gives it (log entry 4). -/
def State.withTableWord (s : State) (nbits w : Nat) : State :=
  match (tablePort nbits w).offset with
  | some off => s.withHostWrite off (BitVec.ofNat 32 (w % 2 ^ nbits))
  | none => s.withStreamOffer (BitVec.ofNat 16 (w % 2 ^ nbits))

end Sys2Proof.Machine
end

