-- ==== Sys2Proof/Machine/Step.lean ====
section
/-! DEFINITION. One step of the block: one agent's turn (00 R6, 20 R85). -/

namespace Sys2Proof.Machine

/-- One step. When no agent has a turn nothing changes: the block idles (70 R302; log entry 3). -/
def step (s : State) : Host.Outcome State Fault Refusal :=
  match s.nextAgent with
  | none => .next s
  | some a => takeTurn a s.turnUsed

/-- The state whose very next step issues the instruction with these bits (log entry 4): a host write or a stream
handshake put before everything waiting. -/
def State.withFetchWord (s : State) (nbits w : Nat) : State := s.withTableWord nbits w

end Sys2Proof.Machine
end

