-- ==== Sys2Proof/Safety.lean ====
section
/-! DEFINITION. What counts as a sound state and a safe step, in the words the statements use. Every predicate here is
decidable, so that a concrete state can be shown to meet it. -/

namespace Sys2Proof.Machine

/-- LOG2N is never outside 1 to 12 (10 R23). -/
abbrev State.ExponentLegal (s : State) : Prop := Config.log2nMin ≤ s.lexp ∧ s.lexp ≤ Config.log2nMax

/-- 0 <= FILL <= N in every reachable state (10 R33). -/
abbrev State.FillLegal (s : State) : Prop := s.fill ≤ s.frameSize

/-- The frame buffer is in its canonical form, and every entry below FILL has been written (10 R52). -/
abbrev State.BufferLegal (s : State) : Prop :=
  FrameBuffer.wf s.fb = true ∧ ∀ i, i < s.fill → (FrameBuffer.read s.fb i).isSome = true

/-- The commands that read the frame buffer (41 R164, R165; 42 R206). -/
abbrev State.RunsOnFrame (s : State) : Prop :=
  s.engine = some .run ∨ s.engine = some .gate ∨ s.engine = some .spectrum

/-- What acceptance checked still holds while the command is in flight (40 R130, R133), and DONE is 0 while BUSY
(40 R131, R133). -/
abbrev State.EngineLegal (s : State) : Prop :=
  (s.RunsOnFrame → s.fill = s.frameSize) ∧
  (s.engine = some .bin2freq → s.binOperand < s.frameSize / 2) ∧
  (s.busy = true → s.done = false)

/-- The invariant of the block: what the spec says of every reachable state (10 R23, R27, R33, R52; 40 R133). -/
abbrev State.Inv (s : State) : Prop :=
  s.ExponentLegal ∧ s.rate ≠ 0#20 ∧ s.FillLegal ∧ s.BufferLegal ∧ s.EngineLegal

/-- RESULT.CODE comes from the command named by RESULT.SRC_OP, and every result register that outcome does not produce
is 0 (60 R261, 40 R134). -/
def Results.consistent (r : Results) : Bool :=
  match r.code, r.srcOp with
  | .none, none => r == Results.zero
  | .belowThreshold, some .run =>
    r == { Results.zero with code := r.code, srcOp := r.srcOp, energy := r.energy, rms := r.rms }
  | .belowThreshold, some .gate =>
    r == { Results.zero with code := r.code, srcOp := r.srcOp, energy := r.energy, rms := r.rms }
  | .gatePass, some .gate =>
    r == { Results.zero with code := r.code, srcOp := r.srcOp, energy := r.energy, rms := r.rms }
  | .dcPeak, some .run =>
    r == { Results.zero with code := r.code, srcOp := r.srcOp, energy := r.energy, rms := r.rms, peakMag := r.peakMag }
  | .spectrumDone, some .spectrum =>
    r == { Results.zero with code := r.code, srcOp := r.srcOp, peakBin := r.peakBin, peakMag := r.peakMag, freq := r.freq }
  | .freqDone, some .bin2freq => r == { Results.zero with code := r.code, srcOp := r.srcOp, freq := r.freq }
  | .invalidFreq, some .mapnote => r == { Results.zero with code := r.code, srcOp := r.srcOp }
  | .note, some .run => true
  | .note, some .mapnote => r == { r with energy := 0, rms := 0, peakBin := 0, peakMag := 0 }
  | _, _ => false

/-- NOTE_NAME holds a note's name, byte 0 the letter A to G, byte 1 `#` or 0, bits [31:16] 0 (10 R49); or it is 0, with
no note (40 R134). -/
abbrev NameInRange (name : Word) : Prop :=
  name = 0 ∨
    (0x41 ≤ (name.extractLsb' 0 8).toNat ∧ (name.extractLsb' 0 8).toNat ≤ 0x47 ∧
      (name.extractLsb' 8 8 = 0x23#8 ∨ name.extractLsb' 8 8 = 0x00#8) ∧ name.extractLsb' 16 16 = 0#16)

/-- The result registers stay in the ranges of 10 R41 to R51 and R62; pitch class and octave come from the key, and the
name and the deviation from a note, wherever the results hold one. -/
abbrev Results.InRange (r : Results) : Prop :=
  r.energy.toNat ≤ 2 ^ 42 ∧ r.rms.toNat ≤ 32768 ∧ r.peakBin.toNat ≤ 2047 ∧
  -200 ≤ r.noteKey.toInt ∧ r.noteKey.toInt ≤ 172 ∧ r.notePc.toNat ≤ 11 ∧
  -17 ≤ r.noteOct.toInt ∧ r.noteOct.toInt ≤ 14 ∧
  (r.notePc.toNat : Int) = r.noteKey.toInt % 12 ∧ r.noteOct.toInt = r.noteKey.toInt / 12 ∧
  r.noteFreq.toNat ≤ 2194674310 ∧ NameInRange r.noteName ∧
  (r.code = .note → r.noteName ≠ 0 ∧ r.noteDev.toInt = (r.freq.toNat : Int) - (r.noteFreq.toNat : Int)) ∧
  (r.code ≠ .note → r.noteName = 0)

/-- The block holds the frame `v`: FILL = N and FB[i] = v i for every i < N (40 R142). -/
abbrev State.HoldsFrame (s : State) (v : Nat → Sample) : Prop :=
  s.fill = s.frameSize ∧ ∀ i, i < s.frameSize → FrameBuffer.read s.fb i = some (v i)

/-- The first `n` samples of `v` as signed integers (10 R53). -/
def frameOf (n : Nat) (v : Nat → Sample) : List Int := (List.range n).map fun i => sampleValue (v i)

/-- The engine is idle: BUSY = 0 (10 R31). -/
abbrev State.Idle (s : State) : Prop := s.engine = none

/-- Issue instructions one after another, with no other agent between them. -/
def execAll : List Instr → State → Host.Outcome State Fault Refusal
  | [], s => .next s
  | i :: rest, s => andThen (exec i s) (execAll rest)

/-- The implemented bits of a register: every other bit is reserved, reads 0 and ignores writes (10 R21 to R51). -/
def regMask : Reg → Word
  | .id | .energyLo | .peakMagLo | .noteKey | .noteOct | .noteName | .noteFreq | .noteDev => 0xFFFFFFFF
  | .ctrl => 0x0003013F
  | .srate => 0x000FFFFF
  | .thresh | .rms => 0x0000FFFF
  | .cmd | .samplePush | .samplePush2 => 0x00000000
  | .status => 0x1FFF00FF
  | .err => 0x0000007F
  | .mapBin | .peakBin | .peakMagHi => 0x00000FFF
  | .mapFreq | .freq => 0x7FFFFFFF
  | .result => 0x00000F0F
  | .energyHi => 0x000007FF
  | .notePc => 0x0000000F

/-- The reserved word offsets of the window: 0x2C to 0x3C and 0x78 to 0xFC (10 R20). -/
abbrev OffsetReserved (off : BitVec 8) : Prop :=
  (0x2C ≤ off.toNat ∧ off.toNat ≤ 0x3C) ∨ 0x78 ≤ off.toNat

/-- A step is safe when it neither faults nor refuses. -/
def Safe (o : Host.Outcome State Fault Refusal) : Prop := ∃ t, o = .next t

end Sys2Proof.Machine
end

