-- ==== Sys2Proof/Certificates/Slice0/Obligations.lean ====
section
/-! DEFINITION. The statements for the provers. Each docstring names the rule of spec/ the statement formalises. -/

open Sys2Proof Sys2Proof.Machine

/-! ## Encoding (30_encoding.md) -/

/-- Decode and encode agree on every instruction, as a word on its port and as the bytes of that word (30 R102, R107;
20 R75). -/
def Obligations.DecodeInvertsEncode : Prop :=
  ∀ i : Instr, i.wellFormed = true →
    decode (encode i) = .ok i ∧ decodeBytes (encode i).port (encode i).bytes = .ok i

/-- What decodes has one encoding: no two words on a port mean the same instruction (30 R102, R107, R118). -/
def Obligations.EncodeInvertsDecode : Prop :=
  ∀ (q : Issue) (i : Instr), decode q = .ok i → encode i = q

/-- The seven command words, and one word of each push, mean what 30 R102 and R107 say. -/
def Obligations.EncodingTableWordsDecode : Prop :=
  decode (.cmd 0x00000000) = .ok .nop ∧ decode (.cmd 0x00000001) = .ok .run ∧
  decode (.cmd 0x00000002) = .ok .gate ∧ decode (.cmd 0x00000003) = .ok .spectrum ∧
  decode (.cmd 0x00000004) = .ok .bin2freq ∧ decode (.cmd 0x00000005) = .ok .mapnote ∧
  decode (.cmd 0x00000006) = .ok .flush ∧
  decode (.samplePush 0xABCD8000) = .ok (.samplePush 0x8000 0xABCD) ∧
  decode (.samplePush2 0x8000007F) = .ok (.samplePush2 0x007F 0x8000) ∧
  decode (.stream 0x03E8) = .ok (.streamPush 1000)

/-! ## A step runs the decoded instruction -/

/-- A step runs the decoded instruction. When the host is next and its transaction writes a word that decodes, at the
offset of its port, the step is that instruction's meaning, with the transaction and the turn used and the write
answered; when the stream source is next, it is the meaning of STREAM_PUSH on the sample offered (20 R72, R89; 40 R141;
log entry 1). -/
def Obligations.StepRunsTheDecodedInstruction : Prop :=
  (∀ (s : State) (off : BitVec 8) (w : Word) (rest : List HostOp) (q : Issue) (i : Instr),
    s.nextAgent = some .host → s.hostQ = .write off 4 w :: rest →
    (off, q) ∈ [((0x10 : BitVec 8), Issue.cmd w), (0x1C, .samplePush w), (0x20, .samplePush2 w)] →
    decode q = .ok i → i.wellFormed = true →
    step s = exec i { s with hostQ := rest, sched := s.sched.tail, resp := .ok }) ∧
  ∀ (s : State) (d : BitVec 16) (rest : List (BitVec 16)) (i : Instr),
    s.nextAgent = some .stream → s.streamQ = d :: rest → decode (.stream d) = .ok i → i.wellFormed = true →
    step s = exec i { s with streamQ := rest, sched := s.sched.tail }

/-- The word the host's interface places is the instruction the very next step runs, in the state it was placed in; a
word written on the bus is also answered (the model's own, log entry 4). -/
def Obligations.PlacedTableWordRunsNext : Prop :=
  ∀ (s : State) (nbits w : Nat) (i : Instr), decodeTableWord nbits w = some i →
    step (s.withFetchWord nbits w) = exec i (if nbits ≤ 16 then s else { s with resp := .ok })

/-! ## The bus and the registers (10_state.md, 20_memory.md) -/

/-- 20 R72: a misaligned access, or a write that is not of four bytes, is answered with the error response and changes
no state of the block; every other transaction is the register read or write it names. -/
def Obligations.BusErrorChangesNothing : Prop :=
  ∀ (s : State) (off : BitVec 8) (size : Nat) (w : Word),
    (off.toNat % 4 ≠ 0 ∨ size ≠ 4 → hostAccess (.write off size w) s = .next { s with resp := .busError }) ∧
    (off.toNat % 4 ≠ 0 → hostAccess (.read off) s = .next { s with resp := .busError }) ∧
    (off.toNat % 4 = 0 → hostAccess (.write off 4 w) s = registerWrite (regAt off) w { s with resp := .ok }) ∧
    (off.toNat % 4 = 0 →
      hostAccess (.read off) s = .next { s with resp := .data (registerRead (regAt off) s) })

/-- 20 R73: a read changes nothing but what the bus answers, a second read answers the same, write-only registers and
reserved offsets read 0, and so does every reserved bit; every other register reads its present value, field by field. The
numbers of CUR_OP, SRC_OP and CODE are those of StatusWordFields and ResultWordFields. -/
def Obligations.ReadsHaveNoSideEffect : Prop :=
  ∀ (s : State) (off : BitVec 8), off.toNat % 4 = 0 →
    ∃ w : Word, w = registerRead (regAt off) s ∧
      hostAccess (.read off) s = .next { s with resp := .data w } ∧
      hostAccess (.read off) { s with resp := .data w } = .next { s with resp := .data w } ∧
      (off = 0x10 ∨ off = 0x1C ∨ off = 0x20 ∨ OffsetReserved off → w = 0) ∧
      (∀ r, regAt off = some r → w &&& ~~~(regMask r) = 0) ∧
      ∀ value : Nat, (off.toNat, value) ∈
        [(0x00, 0x51414450),
         (0x04, s.ieErr.toNat * 2 ^ 17 + s.ieDone.toNat * 2 ^ 16 + s.autoRun.toNat * 2 ^ 8 +
           (if s.win = .hann then 0 else 1) * 2 ^ 4 + s.log2n.toNat),
         (0x08, s.rate.toNat), (0x0C, s.thresh.toNat),
         (0x14, s.fill % 2 ^ 13 * 2 ^ 16 + (opcodeField s.engine).toNat * 2 ^ 4 + s.irq.toNat * 2 ^ 3 +
           (if s.fill = 2 ^ s.log2n.toNat then 1 else 0) * 2 ^ 2 + s.done.toNat * 2 + s.engine.isSome.toNat),
         (0x18, s.err.toNat), (0x24, s.mapBin.toNat), (0x28, s.mapFreq.toNat),
         (0x40, (opcodeField s.res.srcOp).toNat * 2 ^ 8 + s.res.code.bits.toNat),
         (0x44, s.res.energy.toNat % 2 ^ 32), (0x48, s.res.energy.toNat / 2 ^ 32), (0x4C, s.res.rms.toNat),
         (0x50, s.res.peakBin.toNat), (0x54, s.res.peakMag.toNat % 2 ^ 32), (0x58, s.res.peakMag.toNat / 2 ^ 32),
         (0x5C, s.res.freq.toNat), (0x60, s.res.noteKey.toNat), (0x64, s.res.notePc.toNat),
         (0x68, s.res.noteOct.toNat), (0x6C, s.res.noteName.toNat), (0x70, s.res.noteFreq.toNat),
         (0x74, s.res.noteDev.toNat)] → w.toNat = value

/-- 20 R74: a write to a read-only register or a reserved offset changes no state, and in a read-write register the
reserved bits of the written word make no difference. -/
def Obligations.ReadOnlyAndReservedWritesIgnored : Prop :=
  ∀ (s : State) (off : BitVec 8) (w w' : Word), off.toNat % 4 = 0 →
    (off = 0x00 ∨ 0x40 ≤ off.toNat ∨ OffsetReserved off →
      hostAccess (.write off 4 w) s = .next { s with resp := .ok }) ∧
    (∀ r, regAt off = some r → r ∈ [Reg.ctrl, .srate, .thresh, .mapBin, .mapFreq] →
      w &&& regMask r = w' &&& regMask r → hostAccess (.write off 4 w) s = hostAccess (.write off 4 w') s)

/-- 30 R105: the CTRL word is its fields, each at its place, and its reset value is 0x0000010C. -/
def Obligations.CtrlWordAssembled : Prop :=
  (∀ s : State, (registerRead (some .ctrl) s).toNat =
    s.ieErr.toNat * 2 ^ 17 + s.ieDone.toNat * 2 ^ 16 + s.autoRun.toNat * 2 ^ 8 +
      (if s.win = .hann then 0 else 1) * 2 ^ 4 + s.log2n.toNat) ∧
  registerRead (some .ctrl) State.reset = 0x0000010C

/-- 10 R30: the fields of the STATUS word, in every state that keeps the invariant, CUR_OP with the numbers of 30 R102,
and a write of STATUS, which can clear DONE and nothing else. -/
def Obligations.StatusWordFields : Prop :=
  registerRead (some .status) State.reset = 0x00000000 ∧
  (∀ (s : State) (w : Word),
    hostAccess (.write 0x14 4 w) s = .next { s with resp := .ok, done := s.done && !w.getLsbD 1 }) ∧
  ∀ s : State, s.Inv →
    let w := registerRead (some .status) s
    w.getLsbD 0 = s.engine.isSome ∧ w.getLsbD 1 = s.done ∧ w.getLsbD 2 = decide (s.fill = 2 ^ s.log2n.toNat) ∧
    w.getLsbD 3 = s.irq ∧
    s.busy = s.engine.isSome ∧ s.frameSize = 2 ^ s.log2n.toNat ∧
    (s.engine = none → w.extractLsb' 4 4 = 0#4) ∧
    (∀ (op : EngineCmd) (n : BitVec 4), s.engine = some op →
      (op, n) ∈ [(EngineCmd.run, 1#4), (.gate, 2#4), (.spectrum, 3#4), (.bin2freq, 4#4), (.mapnote, 5#4)] →
      w.extractLsb' 4 4 = n) ∧
    w.extractLsb' 8 8 = 0#8 ∧ (w.extractLsb' 16 13).toNat = s.fill ∧ w.extractLsb' 29 3 = 0#3

/-- The RESULT word: CODE with the numbers of 60 R261, SRC_OP with those of 30 R102, every other bit 0 (10 R40, 30
R109); it is 0 after reset. -/
def Obligations.ResultWordFields : Prop :=
  registerRead (some .result) State.reset = 0x00000000 ∧
  ∀ s : State, ∃ w : Word, hostAccess (.read 0x40) s = .next { s with resp := .data w } ∧
    (∀ (c : ResultCode) (n : BitVec 4), s.res.code = c →
      (c, n) ∈ [(ResultCode.none, 0#4), (.note, 1#4), (.belowThreshold, 2#4), (.dcPeak, 3#4), (.gatePass, 4#4),
        (.spectrumDone, 5#4), (.freqDone, 6#4), (.invalidFreq, 7#4)] → w.extractLsb' 0 4 = n) ∧
    (s.res.srcOp = none → w.extractLsb' 8 4 = 0#4) ∧
    (∀ (op : EngineCmd) (n : BitVec 4), s.res.srcOp = some op →
      (op, n) ∈ [(EngineCmd.run, 1#4), (.gate, 2#4), (.spectrum, 3#4), (.bin2freq, 4#4), (.mapnote, 5#4)] →
      w.extractLsb' 8 4 = n) ∧
    w.extractLsb' 4 4 = 0#4 ∧ w.extractLsb' 12 20 = 0#20

/-- The interrupt output is a level of DONE, ERR and the two enables, read at STATUS bit 3; `ack` or an acceptance
clears its completion source, `clrerr` its error source, and with both enables 0 it is 0 (10 R34, 60 R268). -/
def Obligations.IrqIsALevelAndItsSourcesClear : Prop :=
  ∀ s : State, (registerRead (some .status) s).getLsbD 3 = s.irq ∧
    (s.irq = true ↔ (s.done = true ∧ s.ieDone = true) ∨ (s.err ≠ 0#7 ∧ s.ieErr = true)) ∧
    (∃ t, hostAccess (.write 0x14 4 0x00000002) s = .next t ∧ t.irq = (decide (s.err ≠ 0#7) && s.ieErr)) ∧
    (∃ t, hostAccess (.write 0x18 4 0x0000007F) s = .next t ∧ t.irq = (s.done && s.ieDone)) ∧
    (s.Idle → ∃ t, hostAccess (.write 0x10 4 0x00000005) s = .next t ∧
      t.irq = (decide (s.err ≠ 0#7) && s.ieErr)) ∧
    (s.ieDone = false → s.ieErr = false → s.irq = false)

/-- 40 R138: the W1C writes, in every state: bit 1 of STATUS clears DONE, ERR clears the bits written 1. -/
def Obligations.WriteOneToClear : Prop :=
  ∀ (s : State) (w : Word),
    hostAccess (.write 0x14 4 w) s = .next { s with resp := .ok, done := s.done && !w.getLsbD 1 } ∧
    hostAccess (.write 0x18 4 w) s = .next { s with resp := .ok, err := s.err &&& ~~~(w.extractLsb' 0 7) }

/-- 40 R137: every configuration write: BUSY_WRITE while busy, CFG_ERR on an illegal CTRL or SRATE value, else the
field written; a changed LOG2N empties the frame buffer and nothing starts a RUN. -/
def Obligations.ConfigurationWrites : Prop :=
  ∀ (s : State) (w : Word),
    (s.busy = true → ∀ off ∈ [(0x04 : BitVec 8), 0x08, 0x0C, 0x24, 0x28],
      hostAccess (.write off 4 w) s = .next { s with resp := .ok, err := s.err ||| 0x20#7 }) ∧
    (s.Idle →
      ((w.extractLsb' 0 4 = 0#4 ∨ 12 < (w.extractLsb' 0 4).toNat ∨ 1 < (w.extractLsb' 4 2).toNat) →
        hostAccess (.write 0x04 4 w) s = .next { s with resp := .ok, err := s.err ||| 0x08#7 }) ∧
      (1 ≤ (w.extractLsb' 0 4).toNat → (w.extractLsb' 0 4).toNat ≤ 12 → (w.extractLsb' 4 2).toNat ≤ 1 →
        hostAccess (.write 0x04 4 w) s = .next
          { s with
            resp := .ok
            fill := if w.extractLsb' 0 4 = s.log2n then s.fill else 0
            log2n := w.extractLsb' 0 4
            win := if w.extractLsb' 4 2 = 0#2 then .hann else .hamming
            autoRun := w.getLsbD 8
            ieDone := w.getLsbD 16
            ieErr := w.getLsbD 17 }) ∧
      (w.extractLsb' 0 20 = 0#20 →
        hostAccess (.write 0x08 4 w) s = .next { s with resp := .ok, err := s.err ||| 0x08#7 }) ∧
      (w.extractLsb' 0 20 ≠ 0#20 →
        hostAccess (.write 0x08 4 w) s = .next { s with resp := .ok, rate := w.extractLsb' 0 20 }) ∧
      hostAccess (.write 0x0C 4 w) s = .next { s with resp := .ok, thresh := w.extractLsb' 0 16 } ∧
      hostAccess (.write 0x24 4 w) s = .next { s with resp := .ok, mapBin := w.extractLsb' 0 12 } ∧
      hostAccess (.write 0x28 4 w) s = .next { s with resp := .ok, mapFreq := w.extractLsb' 0 31 })

/-! ## Command acceptance and the immediate commands (40_control.md) -/

/-- 40 R130 and R131, 30 R103: a CMD write tests its conditions in the order of the rule and does the first that holds:
at most one error bit, or FLUSH, or acceptance; the decoder refuses exactly the words that set ILLEGAL_CMD. -/
def Obligations.CmdWriteFollowsPriority : Prop :=
  ∀ (s : State) (w : Word),
    ((w.extractLsb' 8 24 ≠ 0#24 ∨ 6 < (w.extractLsb' 0 8).toNat) ↔ decode (.cmd w) = .reject (.illegalCommand w)) ∧
    hostAccess (.write 0x10 4 w) s = .next
      (if w.extractLsb' 8 24 ≠ 0#24 ∨ 6 < (w.extractLsb' 0 8).toNat then
        { s with resp := .ok, err := s.err ||| 0x01#7 }
      else if w = 0 then { s with resp := .ok }
      else if s.busy = true then { s with resp := .ok, err := s.err ||| 0x02#7 }
      else if w = 6 then { s with resp := .ok, fill := 0 }
      else if (w = 1 ∨ w = 2 ∨ w = 3) ∧ s.fill ≠ s.frameSize then { s with resp := .ok, err := s.err ||| 0x04#7 }
      else if w = 4 ∧ s.frameSize / 2 ≤ s.mapBin.toNat then { s with resp := .ok, err := s.err ||| 0x40#7 }
      else
        { s with
          resp := .ok
          engine := some (if w = 1 then .run else if w = 2 then .gate else if w = 3 then .spectrum
            else if w = 4 then .bin2freq else .mapnote)
          done := false })

/-- 40 R135: NOP changes nothing in any state; a word with opcode 0 and a nonzero reserved bit is no NOP. -/
def Obligations.NopChangesNothing : Prop :=
  encode .nop = .cmd 0x00000000 ∧ (∀ s : State, exec .nop s = .next s) ∧
  ∀ (s : State) (w : Word), w.extractLsb' 0 8 = 0#8 → w ≠ 0 →
    hostAccess (.write 0x10 4 w) s = .next { s with resp := .ok, err := s.err ||| 0x01#7 }

/-- 40 R136: FLUSH empties the frame, so FULL is 0 and s_ready is 1, and changes nothing else; while BUSY = 1 it sets
BUSY_CMD and is not done. -/
def Obligations.FlushEmptiesTheFrame : Prop :=
  encode .flush = .cmd 0x00000006 ∧
  ∀ s : State,
    (s.Idle → exec .flush s = .next { s with fill := 0 } ∧
      ({ s with fill := 0 } : State).full = false ∧ ({ s with fill := 0 } : State).sReady = true) ∧
    (s.busy = true → exec .flush s = .next { s with err := s.err ||| 0x02#7 })

/-! ## Sample input (40_control.md) -/

/-- 40 R139: SAMPLE_PUSH stores its sample at FB[FILL] and counts it, starting RUN when that fills the frame and
AUTO_RUN = 1; while BUSY = 1 or FILL = N it drops the sample with OVERFLOW. Nothing else changes. -/
def Obligations.SamplePushStoresOrDrops : Prop :=
  ∀ (s : State) (v g : BitVec 16), s.Inv →
    encode (.samplePush v g) = .samplePush (g ++ v) ∧
    (s.busy = true ∨ s.fill = s.frameSize →
      exec (.samplePush v g) s = .next { s with err := s.err ||| 0x10#7 }) ∧
    (s.Idle → s.fill ≠ s.frameSize → ∃ fb : FrameBuffer,
      exec (.samplePush v g) s = .next
        { s with
          fb := fb
          fill := s.fill + 1
          engine := if s.fill + 1 = s.frameSize ∧ s.autoRun = true then some .run else none
          done := if s.fill + 1 = s.frameSize ∧ s.autoRun = true then false else s.done } ∧
      FrameBuffer.wf fb = true ∧
      ∀ i, FrameBuffer.read fb i = if i = s.fill then some v else FrameBuffer.read s.fb i)

/-- 40 R140: SAMPLE_PUSH2 pushes its low half and then its high half; the second is dropped with OVERFLOW when the
first fills the frame, and both when the engine is busy or the frame is full. Nothing else changes. -/
def Obligations.SamplePush2PushesInOrder : Prop :=
  ∀ (s : State) (a b : BitVec 16), s.Inv →
    encode (.samplePush2 a b) = .samplePush2 (b ++ a) ∧
    (s.busy = true ∨ s.fill = s.frameSize →
      exec (.samplePush2 a b) s = .next { s with err := s.err ||| 0x10#7 }) ∧
    (s.Idle → s.fill + 1 = s.frameSize → ∃ fb : FrameBuffer,
      exec (.samplePush2 a b) s = .next
        { s with
          fb := fb
          fill := s.fill + 1
          engine := if s.autoRun = true then some .run else none
          done := if s.autoRun = true then false else s.done
          err := s.err ||| 0x10#7 } ∧
      ∀ i, FrameBuffer.read fb i = if i = s.fill then some a else FrameBuffer.read s.fb i) ∧
    (s.Idle → s.fill + 1 < s.frameSize → ∃ fb : FrameBuffer,
      exec (.samplePush2 a b) s = .next
        { s with
          fb := fb
          fill := s.fill + 2
          engine := if s.fill + 2 = s.frameSize ∧ s.autoRun = true then some .run else none
          done := if s.fill + 2 = s.frameSize ∧ s.autoRun = true then false else s.done } ∧
      ∀ i, FrameBuffer.read fb i =
        if i = s.fill then some a else if i = s.fill + 1 then some b else FrameBuffer.read s.fb i)

/-- STREAM_PUSH (40 R141, R143): s_ready is 1 exactly when BUSY = 0 and FILL < N; a handshake pushes its sample and
never sets an error bit; with s_ready = 0 the sample stays with the source. That it stays at the head of `streamQ` is the
model's choice (log entry 10). -/
def Obligations.StreamPushStoresOrHolds : Prop :=
  (∀ s : State, s.sReady = true ↔ s.Idle ∧ s.fill < 2 ^ s.log2n.toNat) ∧
  (∀ (s : State) (d : BitVec 16), s.Inv →
    (s.Idle → s.fill < s.frameSize → ∃ fb : FrameBuffer,
      exec (.streamPush d) s = .next
        { s with
          fb := fb
          fill := s.fill + 1
          engine := if s.fill + 1 = s.frameSize ∧ s.autoRun = true then some .run else none
          done := if s.fill + 1 = s.frameSize ∧ s.autoRun = true then false else s.done } ∧
      ∀ i, FrameBuffer.read fb i = if i = s.fill then some d else FrameBuffer.read s.fb i) ∧
    (s.busy = true ∨ s.fill = s.frameSize →
      exec (.streamPush d) s = .next { s with streamQ := d :: s.streamQ })) ∧
  ∀ s : State, s.nextAgent = some .stream → s.streamQ ≠ [] → s.busy = true ∨ s.frameSize ≤ s.fill →
    step s = .next { s with sched := s.sched.tail }

/-- The frame is the samples pushed since FILL was last 0, in push order (40 R142): pushing a list of at most N samples
into an empty frame leaves FB[i] the i-th of them, and RUN started exactly when the list fills the frame and
AUTO_RUN = 1. -/
def Obligations.FrameKeepsPushOrder : Prop :=
  ∀ (s : State) (xs : List (BitVec 16)), s.Inv → s.Idle → s.fill = 0 → xs.length ≤ s.frameSize →
    ∃ t : State, execAll (xs.map fun x => .samplePush x 0) s = .next t ∧ t.fill = xs.length ∧
      (∀ (i : Nat) (x : BitVec 16), xs[i]? = some x → FrameBuffer.read t.fb i = some x) ∧
      (∀ i : Nat, xs.length ≤ i → FrameBuffer.read t.fb i = FrameBuffer.read s.fb i) ∧
      t.engine = (if xs.length = s.frameSize ∧ s.autoRun = true then some .run else none) ∧
      t.err = s.err ∧ t.res = s.res

/-! ## The commands, from CMD write to completion (41, 42, 43) -/

/-- 41 R164: GATE. Its CMD write sets BUSY_CMD while BUSY = 1 and NOT_FULL while FILL != N, and on a held frame
accepts it; whenever the engine then moves, the completion publishes the exact energy, the RMS and the gate's
decision, every other result 0, and keeps the frame and all else. -/
def Obligations.GateMeasuresTheHeldFrame : Prop :=
  encode .gate = .cmd 0x00000002 ∧
  (∀ s : State, (s.busy = true → exec .gate s = .next { s with err := s.err ||| 0x02#7 }) ∧
    (s.Idle → s.fill ≠ s.frameSize → exec .gate s = .next { s with err := s.err ||| 0x04#7 })) ∧
  ∀ (s : State) (v : Nat → Sample), s.ExponentLegal → s.Idle → s.HoldsFrame v →
    exec .gate s = .next { s with engine := some .gate, done := false } ∧
    ∃ r : Results,
      (∀ q, step { s with engine := some .gate, done := false, sched := .engine :: q } =
        .next { s with engine := none, done := true, res := r, sched := q }) ∧
      r = { Results.zero with code := r.code, srcOp := some .gate, energy := r.energy, rms := r.rms } ∧
      (r.energy.toNat : Int) = ∑ i ∈ Finset.range s.frameSize, (v i).toInt * (v i).toInt ∧
      r.rms.toNat = Nat.sqrt (r.energy.toNat / s.frameSize) ∧
      r.code = if s.thresh.toNat * s.thresh.toNat * s.frameSize ≤ r.energy.toNat then .gatePass else .belowThreshold

/-- 41 R165 and R166: RUN. Its CMD write sets BUSY_CMD while BUSY = 1 and NOT_FULL while FILL != N, and on a held
frame accepts it, as the push that fills the frame does when AUTO_RUN = 1; whenever the engine then moves, the completion
empties the frame and publishes BELOW_THRESHOLD, DC_PEAK or NOTE with exactly the results that outcome has. -/
def Obligations.RunProcessesTheHeldFrame : Prop :=
  encode .run = .cmd 0x00000001 ∧
  (∀ s : State, (s.busy = true → exec .run s = .next { s with err := s.err ||| 0x02#7 }) ∧
    (s.Idle → s.fill ≠ s.frameSize → exec .run s = .next { s with err := s.err ||| 0x04#7 })) ∧
  (∀ (s : State) (i : Instr) (d g : BitVec 16), s.Inv → s.Idle → s.autoRun = true → s.fill + 1 = s.frameSize →
    i ∈ [Instr.samplePush d g, .samplePush2 d g, .streamPush d] →
    ∃ t : State, exec i s = .next t ∧ t.engine = some .run ∧ t.done = false ∧ t.fill = t.frameSize) ∧
  ∀ (s : State) (v : Nat → Sample), s.ExponentLegal → s.Idle → s.HoldsFrame v →
    exec .run s = .next { s with engine := some .run, done := false } ∧
    ∃ r : Results,
      (∀ q, step { s with engine := some .run, done := false, sched := .engine :: q } =
        .next { s with engine := none, done := true, fill := 0, res := r, sched := q }) ∧
      (r.energy.toNat : Int) = ∑ i ∈ Finset.range s.frameSize, (v i).toInt * (v i).toInt ∧
      r.rms.toNat = Nat.sqrt (r.energy.toNat / s.frameSize) ∧
      (r.energy.toNat < s.thresh.toNat * s.thresh.toNat * s.frameSize →
        r = { Results.zero with code := .belowThreshold, srcOp := some .run, energy := r.energy, rms := r.rms }) ∧
      (s.thresh.toNat * s.thresh.toNat * s.frameSize ≤ r.energy.toNat →
        ∀ k mag, (k, mag) = spectralPeak s.win s.log2n.toNat (frameOf s.frameSize v) →
          (k = 0 →
            r = { Results.zero with
              code := .dcPeak, srcOp := some .run, energy := r.energy, rms := r.rms, peakMag := BitVec.ofNat 44 mag }) ∧
          (k ≠ 0 →
            r.code = .note ∧ r.srcOp = some .run ∧ r.peakBin.toNat = k ∧ r.peakMag = BitVec.ofNat 44 mag ∧
            r.freq.toNat = k * s.rate.toNat * 2 ^ (12 - s.log2n.toNat) ∧ (s.rate ≠ 0 → 0 < r.freq.toNat) ∧
            r.noteKey.toInt = keyOf r.freq.toNat ∧ r.notePc.toNat = pitchClassOf r.freq.toNat ∧
            r.noteOct.toInt = octaveOf r.freq.toNat ∧ r.noteName = nameOf r.freq.toNat ∧
            (r.noteFreq.toNat : Int) = canonicalOf r.freq.toNat ∧ r.noteDev.toInt = deviationOf r.freq.toNat))

/-- 42 R206: SPECTRUM. Its CMD write sets BUSY_CMD while BUSY = 1 and NOT_FULL while FILL != N, and on a held frame
accepts it; whenever the engine then moves, the completion publishes the peak bin, its magnitude and its frequency,
every other result 0, and keeps the frame and all else. -/
def Obligations.SpectrumFindsThePeak : Prop :=
  encode .spectrum = .cmd 0x00000003 ∧
  (∀ s : State, (s.busy = true → exec .spectrum s = .next { s with err := s.err ||| 0x02#7 }) ∧
    (s.Idle → s.fill ≠ s.frameSize → exec .spectrum s = .next { s with err := s.err ||| 0x04#7 })) ∧
  ∀ (s : State) (v : Nat → Sample), s.ExponentLegal → s.Idle → s.HoldsFrame v →
    exec .spectrum s = .next { s with engine := some .spectrum, done := false } ∧
    ∃ r : Results,
      (∀ q, step { s with engine := some .spectrum, done := false, sched := .engine :: q } =
        .next { s with engine := none, done := true, res := r, sched := q }) ∧
      r = { Results.zero with
        code := .spectrumDone, srcOp := some .spectrum, peakBin := r.peakBin, peakMag := r.peakMag, freq := r.freq } ∧
      ∀ k mag, (k, mag) = spectralPeak s.win s.log2n.toNat (frameOf s.frameSize v) →
        r.peakBin.toNat = k ∧ r.peakMag = BitVec.ofNat 44 mag ∧
        r.freq.toNat = k * s.rate.toNat * 2 ^ (12 - s.log2n.toNat)

/-- 42 R205: BIN2FREQ. With MAP_BIN below N/2 its CMD write accepts it, and whenever the engine then moves the
completion publishes MAP_BIN * SR * 2^(12 - L) and nothing else; with MAP_BIN at or above N/2 it sets ARG_ERR, and
while BUSY = 1 BUSY_CMD. -/
def Obligations.Bin2FreqConvertsTheOperand : Prop :=
  ∀ s : State, s.ExponentLegal →
    encode .bin2freq = .cmd 0x00000004 ∧
    (s.busy = true → exec .bin2freq s = .next { s with err := s.err ||| 0x02#7 }) ∧
    (s.Idle → s.frameSize / 2 ≤ s.mapBin.toNat →
      exec .bin2freq s = .next { s with err := s.err ||| 0x40#7 }) ∧
    (s.Idle → s.mapBin.toNat < s.frameSize / 2 →
      exec .bin2freq s = .next { s with engine := some .bin2freq, done := false } ∧
      ∃ f : BitVec 31, f.toNat = s.mapBin.toNat * s.rate.toNat * 2 ^ (12 - s.log2n.toNat) ∧
        ∀ q, step { s with engine := some .bin2freq, done := false, sched := .engine :: q } =
          .next { s with
            engine := none, done := true, sched := q
            res := { Results.zero with code := .freqDone, srcOp := some .bin2freq, freq := f } })

/-- 43 R244: MAPNOTE. Its CMD write accepts it unless BUSY = 1; whenever the engine then moves, the completion
publishes INVALID_FREQ and zeros for a zero operand, and else the note of the operand, every other result 0. -/
def Obligations.MapNoteMapsTheOperand : Prop :=
  ∀ s : State,
    encode .mapnote = .cmd 0x00000005 ∧
    (s.busy = true → exec .mapnote s = .next { s with err := s.err ||| 0x02#7 }) ∧
    (s.Idle → exec .mapnote s = .next { s with engine := some .mapnote, done := false } ∧
      ∃ r : Results,
        (∀ q, step { s with engine := some .mapnote, done := false, sched := .engine :: q } =
          .next { s with engine := none, done := true, res := r, sched := q }) ∧
        (s.mapFreq = 0 → r = { Results.zero with code := .invalidFreq, srcOp := some .mapnote }) ∧
        (s.mapFreq ≠ 0 →
          r = { r with
            code := .note, srcOp := some .mapnote, energy := 0, rms := 0, peakBin := 0, peakMag := 0, freq := s.mapFreq } ∧
          r.noteKey.toInt = keyOf s.mapFreq.toNat ∧ r.notePc.toNat = pitchClassOf s.mapFreq.toNat ∧
          r.noteOct.toInt = octaveOf s.mapFreq.toNat ∧ r.noteName = nameOf s.mapFreq.toNat ∧
          (r.noteFreq.toNat : Int) = canonicalOf s.mapFreq.toNat ∧
          r.noteDev.toInt = deviationOf s.mapFreq.toNat))

/-! ## The volume gate (41_frame_processor.md) -/

/-- 41 R160: the energy is the exact sum of the squared samples, at most N * 2^30 and so within 43 bits. -/
def Obligations.EnergyIsExactAndFits : Prop :=
  ∀ (n : Nat) (v : Nat → Sample), n ≤ 4096 →
    (energy (frameOf n v) : Int) = ∑ i ∈ Finset.range n, (v i).toInt * (v i).toInt ∧
    energy (frameOf n v) ≤ n * 2 ^ 30 ∧ n * 2 ^ 30 ≤ 2 ^ 42

/-- 41 R161 and R162: the RMS register is the integer square root of E div N, the real RMS rounded down, at most 32768
for a frame's energy; and the gate is open exactly when the real RMS, or equally the RMS register, is not below T. -/
def Obligations.GateTestIsExact : Prop :=
  ∀ e t n : Nat, 0 < n →
    rmsOf e n = Nat.sqrt (e / n) ∧ (rmsOf e n : Int) = ⌊Real.sqrt ((e : ℝ) / n)⌋ ∧
    (e ≤ n * 2 ^ 30 → rmsOf e n ≤ 32768) ∧
    (gateOpen e t n = true ↔ t * t * n ≤ e) ∧
    (gateOpen e t n = false ↔ Real.sqrt ((e : ℝ) / n) < t) ∧
    (gateOpen e t n = false ↔ rmsOf e n < t)

/-! ## Window and transform (42_spectral_estimator.md) -/

/-- The window ROM is the spec's two formulas rounded, with every coefficient in UQ1.16 (42 R190, R191, R192): the
fixed-point evaluation of log entry 9 is exact. -/
def Obligations.WindowRomIsTheFormulaRounded : Prop :=
  ∀ l : Nat, 1 ≤ l → l ≤ 12 → ∀ i : Nat, i < 2 ^ l →
    windowCoeff .hann (2 ^ l) i =
      round ((2 : ℝ) ^ 16 * (1 / 2 * (1 - Real.cos (2 * Real.pi * i / ((2 : ℝ) ^ l - 1))))) ∧
    windowCoeff .hamming (2 ^ l) i =
      round ((2 : ℝ) ^ 16 * (27 / 50 - 23 / 50 * Real.cos (2 * Real.pi * i / ((2 : ℝ) ^ l - 1)))) ∧
    ∀ w : Window, 0 ≤ windowCoeff w (2 ^ l) i ∧ windowCoeff w (2 ^ l) i ≤ 65536

/-- Both windows are symmetric, c_i = c_(N-1-i), and end at 0 (Hann) and 5243 (Hamming) on both sides (42 R193). -/
def Obligations.WindowsAreSymmetric : Prop :=
  ∀ (w : Window) (l i : Nat), 1 ≤ l → i < 2 ^ l →
    windowCoeff w (2 ^ l) (2 ^ l - 1 - i) = windowCoeff w (2 ^ l) i ∧
    windowCoeff .hann (2 ^ l) 0 = 0 ∧ windowCoeff .hann (2 ^ l) (2 ^ l - 1) = 0 ∧
    windowCoeff .hamming (2 ^ l) 0 = 5243 ∧ windowCoeff .hamming (2 ^ l) (2 ^ l - 1) = 5243

/-- The twiddle ROM is the spec's formula rounded (42 R195): the fixed-point evaluation of log entry 9 is exact. -/
def Obligations.TwiddleRomIsTheFormulaRounded : Prop :=
  ∀ j : Nat, j < 2048 →
    twiddleCos j = round ((2 : ℝ) ^ 15 * Real.cos (2 * Real.pi * j / 4096)) ∧
    twiddleSin j = round ((2 : ℝ) ^ 15 * Real.sin (2 * Real.pi * j / 4096))

/-- 42 R198: the twiddle multiply rounds each component of b * (c - i s) / 2^15 once, half up, and by (32768, 0) it is
exact. -/
def Obligations.TwiddleMultiplyRoundsOnce : Prop :=
  ∀ (b : Cplx) (c s : Int),
    (twMul b c s).re = ⌊(((b.re * c + b.im * s : Int) : ℝ) + 2 ^ 14) / 2 ^ 15⌋ ∧
    (twMul b c s).im = ⌊(((b.im * c - b.re * s : Int) : ℝ) + 2 ^ 14) / 2 ^ 15⌋ ∧
    twMul b 32768 0 = b

/-- The load puts windowed sample bitrev_L(n) at entry n, and bitrev_L reverses the L low bits, so every sample is
loaded exactly once (42 R196; 00 R10). Windowed sample i is the exact product of the signed sample i and coefficient i of
the window (42 R194), and the transform is the stages 1 to L on that load. -/
def Obligations.LoadIsBitReversed : Prop :=
  (∀ (n : Nat) (v : Nat → Sample) (i : Nat), i < n → (frameOf n v)[i]? = some (v i).toInt) ∧
  (∀ (w : Window) (l : Nat) (frame : List Int), frame.length = 2 ^ l →
    (windowed w l frame).length = 2 ^ l ∧
    (∀ (i : Nat) (x : Int), frame[i]? = some x →
      (windowed w l frame)[i]? = some (x * windowCoeff w (2 ^ l) i)) ∧
    fft w l frame = fftStages l l (loadSpectrum l (windowed w l frame))) ∧
  ∀ (l : Nat) (xw : List Int), xw.length = 2 ^ l →
    (loadSpectrum l xw).length = 2 ^ l ∧
    ∀ n : Nat, n < 2 ^ l →
      bitrev l n < 2 ^ l ∧ bitrev l (bitrev l n) = n ∧
      (∀ i : Nat, i < l → (bitrev l n).testBit i = n.testBit (l - 1 - i)) ∧
      ∃ x : Int, xw[bitrev l n]? = some x ∧ (loadSpectrum l xw)[n]? = some ⟨x, 0⟩

/-- The stages run in order, and each is the butterflies of 42 R197, entry by entry: group g, butterfly j, with
u = A[g m + j] and t = TwMul(A[g m + j + h], twiddle j * step), and every twiddle index is in the ROM. -/
def Obligations.StageIsItsButterflies : Prop :=
  (∀ (l : Nat) (a : List Cplx), fftStages l 0 a = a ∧
    ∀ st : Nat, fftStages l (st + 1) a = fftStage l (st + 1) (fftStages l st a)) ∧
  ∀ (l st : Nat) (a : List Cplx), 1 ≤ st → st ≤ l → l ≤ 12 → a.length = 2 ^ l →
    (fftStage l st a).length = 2 ^ l ∧
    ∀ g j : Nat, g < 2 ^ (l - st) → j < 2 ^ (st - 1) →
      j * (4096 / 2 ^ st) < 2048 ∧
      ∃ u v : Cplx, a[g * 2 ^ st + j]? = some u ∧ a[g * 2 ^ st + j + 2 ^ (st - 1)]? = some v ∧
        (fftStage l st a)[g * 2 ^ st + j]? =
          some (u.plus (twMul v (twiddleCos (j * (4096 / 2 ^ st))) (twiddleSin (j * (4096 / 2 ^ st))))) ∧
        (fftStage l st a)[g * 2 ^ st + j + 2 ^ (st - 1)]? =
          some (u.minus (twMul v (twiddleCos (j * (4096 / 2 ^ st))) (twiddleSin (j * (4096 / 2 ^ st)))))

/-- 42 R199: at every point of the transform of any frame of samples, every entry has magnitude below 2^44, so each
component fits a 45-bit two's complement word. -/
def Obligations.TransformNeverOverflows : Prop :=
  ∀ (w : Window) (l st : Nat) (v : Nat → Sample), 1 ≤ l → l ≤ 12 → st ≤ l →
    ∀ x ∈ fftStages l st (loadSpectrum l (windowed w l (frameOf (2 ^ l) v))),
      x.re * x.re + x.im * x.im < 2 ^ 88 ∧
      -(2 ^ 44) ≤ x.re ∧ x.re < 2 ^ 44 ∧ -(2 ^ 44) ≤ x.im ∧ x.im < 2 ^ 44

/-- 42 R202: the peak is the lowest bin of the lower half whose P is the greatest there, and its reported magnitude is
the integer square root of that P. -/
def Obligations.PeakIsTheEarliestMaximum : Prop :=
  ∀ (w : Window) (l : Nat) (frame : List Int), 1 ≤ l → frame.length = 2 ^ l →
    ∀ k mag, (k, mag) = spectralPeak w l frame →
      k < 2 ^ l / 2 ∧
      ∃ x : Cplx, (fft w l frame)[k]? = some x ∧
        ((mag * mag : Nat) : Int) ≤ x.re ^ 2 + x.im ^ 2 ∧ x.re ^ 2 + x.im ^ 2 < (((mag + 1) * (mag + 1) : Nat) : Int) ∧
        ∀ (j : Nat) (y : Cplx), j < 2 ^ l / 2 → (fft w l frame)[j]? = some y →
          y.re ^ 2 + y.im ^ 2 ≤ x.re ^ 2 + x.im ^ 2 ∧ (j < k → y.re ^ 2 + y.im ^ 2 < x.re ^ 2 + x.im ^ 2)

/-- The magnitude of the peak of any frame fits the 44 bits of PEAK_MAG (42 R203, 10 R44). -/
def Obligations.PeakMagnitudeFits : Prop :=
  ∀ (w : Window) (l : Nat) (v : Nat → Sample), 1 ≤ l → l ≤ 12 →
    (spectralPeak w l (frameOf (2 ^ l) v)).2 < 2 ^ 44

/-- 42 R204: the bin frequency is k * SR / N hertz exactly in UQ19.12, fits FREQ, and rises strictly with k. -/
def Obligations.BinFrequencyIsExact : Prop :=
  ∀ (l rate k : Nat), 1 ≤ l → l ≤ 12 → 0 < rate → rate < 2 ^ 20 → k < 2 ^ l / 2 →
    binFreq k rate l = k * rate * 2 ^ (12 - l) ∧
    ((binFreq k rate l : ℝ) / 4096 = (k : ℝ) * rate / 2 ^ l) ∧
    binFreq k rate l < rate * 2 ^ 11 ∧ rate * 2 ^ 11 < 2 ^ 31 ∧
    ∀ k' : Nat, k < k' → binFreq k rate l < binFreq k' rate l

/-! ## The note mapper (43_note_mapper.md) -/

/-- 43 R234: the normalized mantissa of an operand, and the frequency it stands for. -/
def Obligations.OperandNormalizes : Prop :=
  ∀ v : Nat, 0 < v → v < 2 ^ 31 →
    notePos v ≤ 30 ∧ 2 ^ notePos v ≤ v ∧ v < 2 ^ (notePos v + 1) ∧
    2 ^ 32 ≤ noteMant v ∧ noteMant v < 2 ^ 33 ∧ noteMant v = v <<< (32 - notePos v) ∧
    (v : ℝ) / 4096 = (noteMant v : ℝ) * (2 : ℝ) ^ ((notePos v : ℤ) - 44)

/-- The threshold ROM is the spec's formula, rounded up (43 R235), strictly rising within the mantissa's range. -/
def Obligations.ThresholdRomIsTheFormula : Prop :=
  noteThresholds.length = 12 ∧
  ∀ j : Nat, j < 12 →
    ((noteThresholds.getD j 0 : Nat) : Int) = ⌈(2 : ℝ) ^ 32 * 440 * (2 : ℝ) ^ (((j : ℝ) - 104.5) / 12)⌉ ∧
    2 ^ 32 < noteThresholds.getD j 0 ∧ noteThresholds.getD j 0 < 2 ^ 33 ∧
    (j < 11 → noteThresholds.getD j 0 < noteThresholds.getD (j + 1) 0)

/-- The canonical-frequency ROM is the spec's formula, rounded, and NF is its entry rr shifted by 30 - q, rounded once,
for the q and rr of the key K = 12 q - 200 + rr (43 R241). -/
def Obligations.CanonicalRomIsTheFormula : Prop :=
  canonicalFreqs.length = 12 ∧
  (∀ r : Nat, r < 12 →
    ((canonicalFreqs.getD r 0 : Nat) : Int) = round ((2 : ℝ) ^ 21 * 440 * (2 : ℝ) ^ (((r : ℝ) + 3) / 12))) ∧
  ∀ v q rr : Nat, 0 < v → v < 2 ^ 31 → rr < 12 → keyOf v = 12 * (q : Int) - 200 + (rr : Int) →
    canonicalOf v =
      if q < 30 then ((canonicalFreqs.getD rr 0 : Nat) + 2 ^ (29 - q) : Int) / 2 ^ (30 - q)
      else (canonicalFreqs.getD rr 0 : Nat) * 2 ^ (q - 30)

/-- 43 R237: the key of the LUT datapath is QAD's key, with real logarithm and rounding, for every operand. -/
def Obligations.LutKeyIsTheIdealKey : Prop :=
  ∀ v : Nat, 0 < v → v < 2 ^ 31 →
    keyOf v = round (12 * Real.logb 2 (((v : ℝ) / 4096) / 440)) + 49

/-- 43 R238: the ranges of the key, its octave step and the octave, with the two ends. -/
def Obligations.KeyAndOctaveRange : Prop :=
  (notePos 1 = 0 ∧ noteMant 1 = 2 ^ 32 ∧ noteCount 1 = 0 ∧ keyOf 1 = -200) ∧
  (notePos (2 ^ 31 - 1) = 30 ∧ noteMant (2 ^ 31 - 1) = 2 ^ 33 - 4 ∧ noteCount (2 ^ 31 - 1) = 12 ∧
    (noteStep (2 ^ 31 - 1)).1 = 31 ∧ keyOf (2 ^ 31 - 1) = 172) ∧
  ∀ v : Nat, 0 < v → v < 2 ^ 31 →
    -200 ≤ keyOf v ∧ keyOf v ≤ 172 ∧ (noteStep v).1 ≤ 31 ∧ -17 ≤ octaveOf v ∧ octaveOf v ≤ 14

/-- 43 R239: pitch class and octave are the Euclidean remainder and quotient of the key by 12, and the equal forms in q
and rr; and the name is that pitch class's entry of the name ROM (43 R240). -/
def Obligations.PitchClassAndOctaveFromKey : Prop :=
  ∀ v : Nat, 0 < v → v < 2 ^ 31 →
    keyOf v = 12 * octaveOf v + (pitchClassOf v : Int) ∧ pitchClassOf v ≤ 11 ∧
    pitchClassOf v = ((noteStep v).2 + 4) % 12 ∧
    octaveOf v = ((noteStep v).1 : Int) - 17 + ((((noteStep v).2 + 4) / 12 : Nat) : Int) ∧
    [0x00000043, 0x00002343, 0x00000044, 0x00002344, 0x00000045, 0x00000046, 0x00002346, 0x00000047, 0x00002347,
      0x00000041, 0x00002341, 0x00000042][pitchClassOf v]? = some (nameOf v)

/-- The canonical frequency is within one raw unit of QAD's 440 * 2^((K - 49)/12) hertz, and fits 32 bits (43 R241). -/
def Obligations.CanonicalFrequencyNearIdeal : Prop :=
  ∀ v : Nat, 0 < v → v < 2 ^ 31 →
    |(canonicalOf v : ℝ) - 2 ^ 12 * 440 * (2 : ℝ) ^ (((keyOf v : ℝ) - 49) / 12)| < 1 ∧
    0 ≤ canonicalOf v ∧ canonicalOf v < 2 ^ 32

/-- 43 R242: the deviation is the exact difference, at most half a semitone of the operand and one raw unit, and so
below 2^26. -/
def Obligations.DeviationIsExactAndSmall : Prop :=
  (∀ v : Nat, 0 < v → v < 2 ^ 31 →
    deviationOf v = (v : Int) - canonicalOf v ∧
    |(deviationOf v : ℝ)| ≤ v * ((2 : ℝ) ^ ((1 : ℝ) / 24) - 1) + 1 ∧
    (v : ℝ) * ((2 : ℝ) ^ ((1 : ℝ) / 24) - 1) + 1 < 0.0294 * 2 ^ 31 ∧ |deviationOf v| < 2 ^ 26) ∧
  deviationOf (2 ^ 31 - 1) = -47190663

/-- Doubling the operand raises the key by 12 and the octave by 1, keeps pitch class and name, and doubles the canonical
frequency up to one raw unit, exactly when q is 30 or more (43 R243). -/
def Obligations.DoublingRaisesAnOctave : Prop :=
  ∀ v : Nat, 0 < v → v < 2 ^ 30 →
    keyOf (2 * v) = keyOf v + 12 ∧ pitchClassOf (2 * v) = pitchClassOf v ∧ nameOf (2 * v) = nameOf v ∧
    octaveOf (2 * v) = octaveOf v + 1 ∧ |canonicalOf (2 * v) - 2 * canonicalOf v| ≤ 1 ∧
    (30 ≤ (noteStep v).1 → canonicalOf (2 * v) = 2 * canonicalOf v)

/-! ## Reset (10 R61, 70_reset_and_hazards.md) -/

/-- 10 R61: what reset leaves in every register and flag. -/
def Obligations.ResetValues : Prop :=
  State.reset.log2n = 12 ∧ State.reset.win = .hann ∧ State.reset.autoRun = true ∧ State.reset.ieDone = false ∧
  State.reset.ieErr = false ∧ State.reset.rate = 44100 ∧ State.reset.thresh = 200 ∧ State.reset.busy = false ∧
  State.reset.done = false ∧ State.reset.engine = none ∧ State.reset.fill = 0 ∧ State.reset.full = false ∧
  State.reset.irq = false ∧ State.reset.err = 0 ∧ State.reset.mapBin = 0 ∧ State.reset.mapFreq = 0 ∧
  State.reset.res = Results.zero ∧ State.reset.sReady = true ∧ State.reset.frameSize = 4096

/-- 70 R301: reset in any state: a command in flight is abandoned with nothing published, the partial frame is lost and
every register is at its reset value. What the host and the stream source have waiting stays, and no frame buffer entry
counts as written (the model's choice, log entries 5 and 12). -/
def Obligations.ResetAbandonsTheCommand : Prop :=
  ∀ (s : State) (q : List Agent), s.sched = .reset :: q →
    ∃ t : State, step s = .next t ∧ t = { State.reset with hostQ := s.hostQ, streamQ := s.streamQ, sched := q } ∧
      t.busy = false ∧ t.done = false ∧ t.fill = 0 ∧ t.res = Results.zero

/-! ## Invariants of every step -/

/-- The reset state keeps the invariant. -/
def Obligations.ResetKeepsTheInvariant : Prop := State.reset.Inv ∧ State.reset.res.consistent = true ∧
  State.reset.res.InRange

/-- Every step of every agent keeps the invariant: LOG2N and SR legal, FILL at most N, the frame buffer canonical and
written below FILL, and what acceptance checked still true while a command is in flight (10 R23, R27, R33, R52;
40 R133). -/
def Obligations.StepKeepsTheInvariant : Prop :=
  ∀ s t : State, s.Inv → step s = .next t → t.Inv

/-- A state that keeps the invariant never stops: no step faults or is refused, so no reachable state reads an
unwritten sample or pushes out of range (10 R52, 60 R260). -/
def Obligations.InvariantStatesNeverStop : Prop :=
  ∀ s : State, s.Inv → Safe (step s)

/-- RESULT always names the one command its registers describe: after every step, CODE is one that SRC_OP produces and
every register that outcome does not have is 0 (40 R134, 60 R261). -/
def Obligations.StepKeepsResultsConsistent : Prop :=
  ∀ s t : State, s.res.consistent = true → step s = .next t → t.res.consistent = true

/-- Every step keeps the result registers in the ranges of 10 R41 to R51 (`Results.InRange`): NOTE_PC and NOTE_OCT are
the remainder and quotient of NOTE_KEY by 12, and with a note NOTE_NAME is a letter with or without a sharp and NOTE_DEV is
FREQ - NOTE_FREQ. -/
def Obligations.StepKeepsResultsInRange : Prop :=
  ∀ s t : State, s.Inv → s.res.InRange → step s = .next t → t.res.InRange

/-! ## Rules of the whole machine -/

/-- Only a completion and reset write the result registers (10 R20, 20 R86, 40 R131). -/
def Obligations.ResultsChangeOnlyAtCompletion : Prop :=
  ∀ s t : State, step s = .next t → t.res ≠ s.res →
    (s.nextAgent = some .engine ∧ s.busy = true) ∨ s.nextAgent = some .reset

/-- An error bit, once set, is cleared only by a host write of 1 to it or by reset (10 R35, 60 R263). -/
def Obligations.ErrorBitsAreSticky : Prop :=
  ∀ (s t : State) (b : Nat), step s = .next t → s.err.getLsbD b = true → t.err.getLsbD b = false →
    s.nextAgent = some .reset ∨
    (s.nextAgent = some .host ∧ ∃ w rest, s.hostQ = .write 0x18 4 w :: rest ∧ w.getLsbD b = true)

/-- While a command is in flight, no step of the host or the stream source changes what it computes on, nor the command
itself (40 R133, R137, R139 to R141). -/
def Obligations.BusyFreezesTheOperands : Prop :=
  ∀ s t : State, s.busy = true → step s = .next t → (s.nextAgent = some .host ∨ s.nextAgent = some .stream) →
    t.engine = s.engine ∧ t.log2n = s.log2n ∧ t.win = s.win ∧ t.rate = s.rate ∧ t.thresh = s.thresh ∧
    t.mapBin = s.mapBin ∧ t.mapFreq = s.mapFreq ∧ t.fill = s.fill ∧ t.fb = s.fb ∧ t.res = s.res

/-- What a command computes does not depend on how many host and stream steps come between its acceptance and its
completion: LATENCY changes no result (40 R133, 70 R314). -/
def Obligations.LatencyChangesNoResult : Prop :=
  ∀ (s t : State) (k : Nat) (op : EngineCmd), s.engine = some op → k ≤ s.sched.length →
    (∀ a ∈ s.sched.take k, a = .host ∨ a = .stream) → core.run k s = .next t →
    t.engine = some op ∧ execute op t = execute op s

/-- An accepted command completes: unless reset comes first, the engine has its step after at most as many others as the
schedule holds (70 R315; that the engine moves first once the schedule is used up is log entry 1). -/
def Obligations.AcceptedCommandCompletes : Prop :=
  ∀ (s : State) (op : EngineCmd), s.Inv → s.engine = some op → .reset ∉ s.sched →
    ∃ (k : Nat) (u t : State), k ≤ s.sched.length ∧ core.run k s = .next u ∧ u.engine = some op ∧
      step u = .next t ∧ t.engine = none ∧ t.done = true ∧ t.res.srcOp = some op

/-- A command's results are a function of the N samples of the frame and the configuration alone: the rest of the state,
earlier results among it, cannot be seen in them (40 R133, 41 R168, 43 R246). -/
def Obligations.ResultsDependOnFrameAndConfiguration : Prop :=
  ∀ (op : EngineCmd) (s s' : State), s.log2n = s'.log2n → s.win = s'.win → s.rate = s'.rate →
    s.thresh = s'.thresh → s.mapBin = s'.mapBin → s.mapFreq = s'.mapFreq →
    (∀ i, i < s.frameSize → FrameBuffer.read s.fb i = FrameBuffer.read s'.fb i) →
    execute op s = execute op s'
end

