-- ==== Sys2Proof/Laws/FrameBuffer.lean ====
section
/-! SUPPORT. The laws of the frame buffer: a read after a write, the canonical form kept by every write, and what reading
a run of entries gives. -/

namespace Sys2Proof.Machine

@[simp] theorem FrameBuffer.read_nil (i : Nat) : FrameBuffer.read [] i = none := rfl

/-- A read after a write gives the value written there and every other entry as before, whatever the list. -/
theorem FrameBuffer.read_write (fb : FrameBuffer) (i : Nat) (v : Sample) (j : Nat) :
    FrameBuffer.read (FrameBuffer.write fb i v) j = if j = i then some v else FrameBuffer.read fb j := by
  induction fb with
  | nil => simp [FrameBuffer.write, FrameBuffer.read, eq_comm]
  | cons e rest ih =>
    obtain ⟨k, x⟩ := e
    simp only [FrameBuffer.write]
    by_cases h1 : i < k
    · simp [h1, FrameBuffer.read, eq_comm]
    · by_cases h2 : i = k
      · subst h2
        by_cases h3 : j = i
        · simp [h3, FrameBuffer.read]
        · simp [h3, FrameBuffer.read, Ne.symm h3]
      · simp only [h1, h2, if_false, FrameBuffer.read, ih]
        by_cases h3 : k = j
        · simp [h3, show ¬j = i by omega]
        · simp [h3]

@[simp] theorem FrameBuffer.read_write_self (fb : FrameBuffer) (i : Nat) (v : Sample) :
    FrameBuffer.read (FrameBuffer.write fb i v) i = some v := by
  simp [FrameBuffer.read_write]

theorem FrameBuffer.read_write_of_ne (fb : FrameBuffer) (v : Sample) (i j : Nat) (h : j ≠ i) :
    FrameBuffer.read (FrameBuffer.write fb i v) j = FrameBuffer.read fb j := by
  simp [FrameBuffer.read_write, h]

/-- A write keeps the indices strictly rising. -/
theorem FrameBuffer.risesFrom_write (fb : FrameBuffer) (low i : Nat) (v : Sample) (hl : low ≤ i)
    (h : FrameBuffer.risesFrom low fb = true) :
    FrameBuffer.risesFrom low (FrameBuffer.write fb i v) = true := by
  induction fb generalizing low with
  | nil => simp [FrameBuffer.write, FrameBuffer.risesFrom, hl]
  | cons e rest ih =>
    obtain ⟨k, x⟩ := e
    simp only [FrameBuffer.risesFrom, Bool.and_eq_true, decide_eq_true_eq] at h
    simp only [FrameBuffer.write]
    split_ifs with h1 h2
    · simp [FrameBuffer.risesFrom, hl, h.2]; omega
    · subst h2; simp [FrameBuffer.risesFrom, hl, h.2]
    · simp [FrameBuffer.risesFrom, h.1, ih (k + 1) (by omega) h.2]

/-- A write lists no index beyond those already listed and its own. -/
theorem FrameBuffer.mem_write (fb : FrameBuffer) (i : Nat) (v : Sample) (e : Nat × Sample)
    (h : e ∈ FrameBuffer.write fb i v) : e = (i, v) ∨ e ∈ fb := by
  induction fb with
  | nil => simpa [FrameBuffer.write] using h
  | cons f rest ih =>
    obtain ⟨k, x⟩ := f
    simp only [FrameBuffer.write] at h
    split_ifs at h with h1 h2
    · simpa using h
    · simp only [List.mem_cons] at h ⊢; tauto
    · simp only [List.mem_cons] at h ⊢
      rcases h with h | h
      · exact .inr (.inl h)
      · exact (ih h).imp id .inr

/-- The frame buffer's one write keeps the canonical form. -/
theorem FrameBuffer.wf_write (fb : FrameBuffer) (i : Nat) (v : Sample) (hi : i < Config.nMax)
    (h : FrameBuffer.wf fb = true) : FrameBuffer.wf (FrameBuffer.write fb i v) = true := by
  simp only [FrameBuffer.wf, Bool.and_eq_true, List.all_eq_true, decide_eq_true_eq] at h ⊢
  refine ⟨FrameBuffer.risesFrom_write fb 0 i v (Nat.zero_le _) h.1, fun e he => ?_⟩
  rcases FrameBuffer.mem_write fb i v e he with rfl | he
  · exact hi
  · exact h.2 e he

/-- Reset's frame buffer has the canonical form. -/
theorem FrameBuffer.wf_reset : FrameBuffer.wf State.reset.fb = true := rfl

/-- Reading a run of entries gives their signed values in order. -/
theorem FrameBuffer.readFrom_eq (fb : FrameBuffer) (n i : Nat) (v : Nat → Sample)
    (h : ∀ j, j < n → FrameBuffer.read fb (i + j) = some (v (i + j))) :
    FrameBuffer.readFrom fb n i = .ok ((List.range n).map fun j => sampleValue (v (i + j))) := by
  induction n generalizing i with
  | zero => rfl
  | succ n ih =>
    have h0 := h 0 (Nat.succ_pos n)
    have ht := ih (i + 1) fun j hj => by
      have := h (j + 1) (Nat.succ_lt_succ hj)
      rwa [show i + (j + 1) = i + 1 + j by omega] at this
    simp only [Nat.add_zero] at h0
    simp only [FrameBuffer.readFrom, h0, ht, List.range_succ_eq_map, List.map_cons, List.map_map, Nat.add_zero]
    congr 3
    funext j
    simp [Function.comp, Nat.add_assoc, Nat.add_comm 1 j]

/-- A run of entries that reads has the length asked for. -/
theorem FrameBuffer.readFrom_length (fb : FrameBuffer) (n i : Nat) (xs : List Int)
    (h : FrameBuffer.readFrom fb n i = .ok xs) : xs.length = n := by
  induction n generalizing i xs with
  | zero => cases h; rfl
  | succ n ih =>
    simp only [FrameBuffer.readFrom] at h
    split at h
    · cases h
    · split at h
      · rename_i hvs; cases h; simp [ih _ _ hvs]
      · cases h

/-- A run of entries reads exactly when each of them has been written. -/
theorem FrameBuffer.readFrom_ok_of_written (fb : FrameBuffer) (n i : Nat)
    (h : ∀ j, j < n → (FrameBuffer.read fb (i + j)).isSome = true) :
    ∃ xs, FrameBuffer.readFrom fb n i = .ok xs := by
  refine ⟨_, FrameBuffer.readFrom_eq fb n i (fun k => (FrameBuffer.read fb k).getD 0) fun j hj => ?_⟩
  obtain ⟨x, hx⟩ := Option.isSome_iff_exists.mp (h j hj)
  simp [hx]

/-- The frame of a block that holds `v`. -/
theorem State.frame_of_holds (s : State) (v : Nat → Sample) (h : s.HoldsFrame v) :
    s.frame = .ok (frameOf s.frameSize v) := by
  have := FrameBuffer.readFrom_eq s.fb s.frameSize 0 v (by simpa using h.2)
  simpa [State.frame, frameOf] using this

end Sys2Proof.Machine
end

