-- ==== Sys2Proof/Laws/State.lean ====
section
/-! SUPPORT. One lemma per field per state update, each true by definition, so that no later proof unfolds a record
update; and what the derived views (N, BUSY, FULL) are after each. -/

namespace Sys2Proof.Machine

/-! `raise Err(BIT)` changes ERR alone (60 R263). -/

@[simp] theorem State.raise_log2n (b : ErrBit) (s : State) : (s.raise b).log2n = s.log2n := rfl
@[simp] theorem State.raise_win (b : ErrBit) (s : State) : (s.raise b).win = s.win := rfl
@[simp] theorem State.raise_autoRun (b : ErrBit) (s : State) : (s.raise b).autoRun = s.autoRun := rfl
@[simp] theorem State.raise_ieDone (b : ErrBit) (s : State) : (s.raise b).ieDone = s.ieDone := rfl
@[simp] theorem State.raise_ieErr (b : ErrBit) (s : State) : (s.raise b).ieErr = s.ieErr := rfl
@[simp] theorem State.raise_rate (b : ErrBit) (s : State) : (s.raise b).rate = s.rate := rfl
@[simp] theorem State.raise_thresh (b : ErrBit) (s : State) : (s.raise b).thresh = s.thresh := rfl
@[simp] theorem State.raise_mapBin (b : ErrBit) (s : State) : (s.raise b).mapBin = s.mapBin := rfl
@[simp] theorem State.raise_mapFreq (b : ErrBit) (s : State) : (s.raise b).mapFreq = s.mapFreq := rfl
@[simp] theorem State.raise_engine (b : ErrBit) (s : State) : (s.raise b).engine = s.engine := rfl
@[simp] theorem State.raise_done (b : ErrBit) (s : State) : (s.raise b).done = s.done := rfl
@[simp] theorem State.raise_fill (b : ErrBit) (s : State) : (s.raise b).fill = s.fill := rfl
@[simp] theorem State.raise_err (b : ErrBit) (s : State) : (s.raise b).err = s.err ||| b.mask := rfl
@[simp] theorem State.raise_fb (b : ErrBit) (s : State) : (s.raise b).fb = s.fb := rfl
@[simp] theorem State.raise_res (b : ErrBit) (s : State) : (s.raise b).res = s.res := rfl
@[simp] theorem State.raise_resp (b : ErrBit) (s : State) : (s.raise b).resp = s.resp := rfl
@[simp] theorem State.raise_hostQ (b : ErrBit) (s : State) : (s.raise b).hostQ = s.hostQ := rfl
@[simp] theorem State.raise_streamQ (b : ErrBit) (s : State) : (s.raise b).streamQ = s.streamQ := rfl
@[simp] theorem State.raise_sched (b : ErrBit) (s : State) : (s.raise b).sched = s.sched := rfl

@[simp] theorem State.raise_lexp (b : ErrBit) (s : State) : (s.raise b).lexp = s.lexp := rfl
@[simp] theorem State.raise_frameSize (b : ErrBit) (s : State) : (s.raise b).frameSize = s.frameSize := rfl
@[simp] theorem State.raise_binOperand (b : ErrBit) (s : State) : (s.raise b).binOperand = s.binOperand := rfl
@[simp] theorem State.raise_busy (b : ErrBit) (s : State) : (s.raise b).busy = s.busy := rfl
@[simp] theorem State.raise_full (b : ErrBit) (s : State) : (s.raise b).full = s.full := rfl

/-! `Accept(op)` changes BUSY, CUR_OP and DONE alone (40 R131). -/

@[simp] theorem State.accept_log2n (op : EngineCmd) (s : State) : (s.accept op).log2n = s.log2n := rfl
@[simp] theorem State.accept_win (op : EngineCmd) (s : State) : (s.accept op).win = s.win := rfl
@[simp] theorem State.accept_autoRun (op : EngineCmd) (s : State) : (s.accept op).autoRun = s.autoRun := rfl
@[simp] theorem State.accept_ieDone (op : EngineCmd) (s : State) : (s.accept op).ieDone = s.ieDone := rfl
@[simp] theorem State.accept_ieErr (op : EngineCmd) (s : State) : (s.accept op).ieErr = s.ieErr := rfl
@[simp] theorem State.accept_rate (op : EngineCmd) (s : State) : (s.accept op).rate = s.rate := rfl
@[simp] theorem State.accept_thresh (op : EngineCmd) (s : State) : (s.accept op).thresh = s.thresh := rfl
@[simp] theorem State.accept_mapBin (op : EngineCmd) (s : State) : (s.accept op).mapBin = s.mapBin := rfl
@[simp] theorem State.accept_mapFreq (op : EngineCmd) (s : State) : (s.accept op).mapFreq = s.mapFreq := rfl
@[simp] theorem State.accept_engine (op : EngineCmd) (s : State) : (s.accept op).engine = some op := rfl
@[simp] theorem State.accept_done (op : EngineCmd) (s : State) : (s.accept op).done = false := rfl
@[simp] theorem State.accept_fill (op : EngineCmd) (s : State) : (s.accept op).fill = s.fill := rfl
@[simp] theorem State.accept_err (op : EngineCmd) (s : State) : (s.accept op).err = s.err := rfl
@[simp] theorem State.accept_fb (op : EngineCmd) (s : State) : (s.accept op).fb = s.fb := rfl
@[simp] theorem State.accept_res (op : EngineCmd) (s : State) : (s.accept op).res = s.res := rfl
@[simp] theorem State.accept_resp (op : EngineCmd) (s : State) : (s.accept op).resp = s.resp := rfl
@[simp] theorem State.accept_hostQ (op : EngineCmd) (s : State) : (s.accept op).hostQ = s.hostQ := rfl
@[simp] theorem State.accept_streamQ (op : EngineCmd) (s : State) : (s.accept op).streamQ = s.streamQ := rfl
@[simp] theorem State.accept_sched (op : EngineCmd) (s : State) : (s.accept op).sched = s.sched := rfl

@[simp] theorem State.accept_lexp (op : EngineCmd) (s : State) : (s.accept op).lexp = s.lexp := rfl
@[simp] theorem State.accept_frameSize (op : EngineCmd) (s : State) : (s.accept op).frameSize = s.frameSize := rfl
@[simp] theorem State.accept_binOperand (op : EngineCmd) (s : State) : (s.accept op).binOperand = s.binOperand := rfl
@[simp] theorem State.accept_busy (op : EngineCmd) (s : State) : (s.accept op).busy = true := rfl
@[simp] theorem State.accept_full (op : EngineCmd) (s : State) : (s.accept op).full = s.full := rfl

/-! FLUSH changes FILL alone (40 R136). -/

@[simp] theorem State.emptyFrame_log2n (s : State) : (s.emptyFrame).log2n = s.log2n := rfl
@[simp] theorem State.emptyFrame_win (s : State) : (s.emptyFrame).win = s.win := rfl
@[simp] theorem State.emptyFrame_autoRun (s : State) : (s.emptyFrame).autoRun = s.autoRun := rfl
@[simp] theorem State.emptyFrame_ieDone (s : State) : (s.emptyFrame).ieDone = s.ieDone := rfl
@[simp] theorem State.emptyFrame_ieErr (s : State) : (s.emptyFrame).ieErr = s.ieErr := rfl
@[simp] theorem State.emptyFrame_rate (s : State) : (s.emptyFrame).rate = s.rate := rfl
@[simp] theorem State.emptyFrame_thresh (s : State) : (s.emptyFrame).thresh = s.thresh := rfl
@[simp] theorem State.emptyFrame_mapBin (s : State) : (s.emptyFrame).mapBin = s.mapBin := rfl
@[simp] theorem State.emptyFrame_mapFreq (s : State) : (s.emptyFrame).mapFreq = s.mapFreq := rfl
@[simp] theorem State.emptyFrame_engine (s : State) : (s.emptyFrame).engine = s.engine := rfl
@[simp] theorem State.emptyFrame_done (s : State) : (s.emptyFrame).done = s.done := rfl
@[simp] theorem State.emptyFrame_fill (s : State) : (s.emptyFrame).fill = 0 := rfl
@[simp] theorem State.emptyFrame_err (s : State) : (s.emptyFrame).err = s.err := rfl
@[simp] theorem State.emptyFrame_fb (s : State) : (s.emptyFrame).fb = s.fb := rfl
@[simp] theorem State.emptyFrame_res (s : State) : (s.emptyFrame).res = s.res := rfl
@[simp] theorem State.emptyFrame_resp (s : State) : (s.emptyFrame).resp = s.resp := rfl
@[simp] theorem State.emptyFrame_hostQ (s : State) : (s.emptyFrame).hostQ = s.hostQ := rfl
@[simp] theorem State.emptyFrame_streamQ (s : State) : (s.emptyFrame).streamQ = s.streamQ := rfl
@[simp] theorem State.emptyFrame_sched (s : State) : (s.emptyFrame).sched = s.sched := rfl

@[simp] theorem State.emptyFrame_lexp (s : State) : (s.emptyFrame).lexp = s.lexp := rfl
@[simp] theorem State.emptyFrame_frameSize (s : State) : (s.emptyFrame).frameSize = s.frameSize := rfl
@[simp] theorem State.emptyFrame_binOperand (s : State) : (s.emptyFrame).binOperand = s.binOperand := rfl
@[simp] theorem State.emptyFrame_busy (s : State) : (s.emptyFrame).busy = s.busy := rfl

/-! Storing a sample changes FB and FILL alone (40 R142). -/

@[simp] theorem State.store_log2n (v : Sample) (s : State) : (s.store v).log2n = s.log2n := rfl
@[simp] theorem State.store_win (v : Sample) (s : State) : (s.store v).win = s.win := rfl
@[simp] theorem State.store_autoRun (v : Sample) (s : State) : (s.store v).autoRun = s.autoRun := rfl
@[simp] theorem State.store_ieDone (v : Sample) (s : State) : (s.store v).ieDone = s.ieDone := rfl
@[simp] theorem State.store_ieErr (v : Sample) (s : State) : (s.store v).ieErr = s.ieErr := rfl
@[simp] theorem State.store_rate (v : Sample) (s : State) : (s.store v).rate = s.rate := rfl
@[simp] theorem State.store_thresh (v : Sample) (s : State) : (s.store v).thresh = s.thresh := rfl
@[simp] theorem State.store_mapBin (v : Sample) (s : State) : (s.store v).mapBin = s.mapBin := rfl
@[simp] theorem State.store_mapFreq (v : Sample) (s : State) : (s.store v).mapFreq = s.mapFreq := rfl
@[simp] theorem State.store_engine (v : Sample) (s : State) : (s.store v).engine = s.engine := rfl
@[simp] theorem State.store_done (v : Sample) (s : State) : (s.store v).done = s.done := rfl
@[simp] theorem State.store_fill (v : Sample) (s : State) : (s.store v).fill = s.fill + 1 := rfl
@[simp] theorem State.store_err (v : Sample) (s : State) : (s.store v).err = s.err := rfl
@[simp] theorem State.store_fb (v : Sample) (s : State) : (s.store v).fb = FrameBuffer.write s.fb s.fill v := rfl
@[simp] theorem State.store_res (v : Sample) (s : State) : (s.store v).res = s.res := rfl
@[simp] theorem State.store_resp (v : Sample) (s : State) : (s.store v).resp = s.resp := rfl
@[simp] theorem State.store_hostQ (v : Sample) (s : State) : (s.store v).hostQ = s.hostQ := rfl
@[simp] theorem State.store_streamQ (v : Sample) (s : State) : (s.store v).streamQ = s.streamQ := rfl
@[simp] theorem State.store_sched (v : Sample) (s : State) : (s.store v).sched = s.sched := rfl

@[simp] theorem State.store_lexp (v : Sample) (s : State) : (s.store v).lexp = s.lexp := rfl
@[simp] theorem State.store_frameSize (v : Sample) (s : State) : (s.store v).frameSize = s.frameSize := rfl
@[simp] theorem State.store_binOperand (v : Sample) (s : State) : (s.store v).binOperand = s.binOperand := rfl
@[simp] theorem State.store_busy (v : Sample) (s : State) : (s.store v).busy = s.busy := rfl

/-! A completion changes the result registers, BUSY, CUR_OP, DONE and, for RUN, FILL (40 R133). -/

@[simp] theorem State.publish_log2n (op : EngineCmd) (r : Results) (s : State) : (s.publish op r).log2n = s.log2n := rfl
@[simp] theorem State.publish_win (op : EngineCmd) (r : Results) (s : State) : (s.publish op r).win = s.win := rfl
@[simp] theorem State.publish_autoRun (op : EngineCmd) (r : Results) (s : State) : (s.publish op r).autoRun = s.autoRun := rfl
@[simp] theorem State.publish_ieDone (op : EngineCmd) (r : Results) (s : State) : (s.publish op r).ieDone = s.ieDone := rfl
@[simp] theorem State.publish_ieErr (op : EngineCmd) (r : Results) (s : State) : (s.publish op r).ieErr = s.ieErr := rfl
@[simp] theorem State.publish_rate (op : EngineCmd) (r : Results) (s : State) : (s.publish op r).rate = s.rate := rfl
@[simp] theorem State.publish_thresh (op : EngineCmd) (r : Results) (s : State) : (s.publish op r).thresh = s.thresh := rfl
@[simp] theorem State.publish_mapBin (op : EngineCmd) (r : Results) (s : State) : (s.publish op r).mapBin = s.mapBin := rfl
@[simp] theorem State.publish_mapFreq (op : EngineCmd) (r : Results) (s : State) : (s.publish op r).mapFreq = s.mapFreq := rfl
@[simp] theorem State.publish_engine (op : EngineCmd) (r : Results) (s : State) : (s.publish op r).engine = none := rfl
@[simp] theorem State.publish_done (op : EngineCmd) (r : Results) (s : State) : (s.publish op r).done = true := rfl
@[simp] theorem State.publish_fill (op : EngineCmd) (r : Results) (s : State) : (s.publish op r).fill = if op = .run then 0 else s.fill := rfl
@[simp] theorem State.publish_err (op : EngineCmd) (r : Results) (s : State) : (s.publish op r).err = s.err := rfl
@[simp] theorem State.publish_fb (op : EngineCmd) (r : Results) (s : State) : (s.publish op r).fb = s.fb := rfl
@[simp] theorem State.publish_res (op : EngineCmd) (r : Results) (s : State) : (s.publish op r).res = { r with srcOp := some op } := rfl
@[simp] theorem State.publish_resp (op : EngineCmd) (r : Results) (s : State) : (s.publish op r).resp = s.resp := rfl
@[simp] theorem State.publish_hostQ (op : EngineCmd) (r : Results) (s : State) : (s.publish op r).hostQ = s.hostQ := rfl
@[simp] theorem State.publish_streamQ (op : EngineCmd) (r : Results) (s : State) : (s.publish op r).streamQ = s.streamQ := rfl
@[simp] theorem State.publish_sched (op : EngineCmd) (r : Results) (s : State) : (s.publish op r).sched = s.sched := rfl

@[simp] theorem State.publish_lexp (op : EngineCmd) (r : Results) (s : State) : (s.publish op r).lexp = s.lexp := rfl
@[simp] theorem State.publish_frameSize (op : EngineCmd) (r : Results) (s : State) : (s.publish op r).frameSize = s.frameSize := rfl
@[simp] theorem State.publish_binOperand (op : EngineCmd) (r : Results) (s : State) : (s.publish op r).binOperand = s.binOperand := rfl
@[simp] theorem State.publish_busy (op : EngineCmd) (r : Results) (s : State) : (s.publish op r).busy = false := rfl

/-! Using a turn changes the schedule alone. -/

@[simp] theorem State.turnUsed_log2n (s : State) : (s.turnUsed).log2n = s.log2n := rfl
@[simp] theorem State.turnUsed_win (s : State) : (s.turnUsed).win = s.win := rfl
@[simp] theorem State.turnUsed_autoRun (s : State) : (s.turnUsed).autoRun = s.autoRun := rfl
@[simp] theorem State.turnUsed_ieDone (s : State) : (s.turnUsed).ieDone = s.ieDone := rfl
@[simp] theorem State.turnUsed_ieErr (s : State) : (s.turnUsed).ieErr = s.ieErr := rfl
@[simp] theorem State.turnUsed_rate (s : State) : (s.turnUsed).rate = s.rate := rfl
@[simp] theorem State.turnUsed_thresh (s : State) : (s.turnUsed).thresh = s.thresh := rfl
@[simp] theorem State.turnUsed_mapBin (s : State) : (s.turnUsed).mapBin = s.mapBin := rfl
@[simp] theorem State.turnUsed_mapFreq (s : State) : (s.turnUsed).mapFreq = s.mapFreq := rfl
@[simp] theorem State.turnUsed_engine (s : State) : (s.turnUsed).engine = s.engine := rfl
@[simp] theorem State.turnUsed_done (s : State) : (s.turnUsed).done = s.done := rfl
@[simp] theorem State.turnUsed_fill (s : State) : (s.turnUsed).fill = s.fill := rfl
@[simp] theorem State.turnUsed_err (s : State) : (s.turnUsed).err = s.err := rfl
@[simp] theorem State.turnUsed_fb (s : State) : (s.turnUsed).fb = s.fb := rfl
@[simp] theorem State.turnUsed_res (s : State) : (s.turnUsed).res = s.res := rfl
@[simp] theorem State.turnUsed_resp (s : State) : (s.turnUsed).resp = s.resp := rfl
@[simp] theorem State.turnUsed_hostQ (s : State) : (s.turnUsed).hostQ = s.hostQ := rfl
@[simp] theorem State.turnUsed_streamQ (s : State) : (s.turnUsed).streamQ = s.streamQ := rfl
@[simp] theorem State.turnUsed_sched (s : State) : (s.turnUsed).sched = s.sched.tail := rfl

@[simp] theorem State.turnUsed_lexp (s : State) : (s.turnUsed).lexp = s.lexp := rfl
@[simp] theorem State.turnUsed_frameSize (s : State) : (s.turnUsed).frameSize = s.frameSize := rfl
@[simp] theorem State.turnUsed_binOperand (s : State) : (s.turnUsed).binOperand = s.binOperand := rfl
@[simp] theorem State.turnUsed_busy (s : State) : (s.turnUsed).busy = s.busy := rfl
@[simp] theorem State.turnUsed_full (s : State) : (s.turnUsed).full = s.full := rfl

/-! A host write put first changes the host's queue and the schedule alone. -/

@[simp] theorem State.withHostWrite_log2n (off : BitVec 8) (w : Word) (s : State) : (s.withHostWrite off w).log2n = s.log2n := rfl
@[simp] theorem State.withHostWrite_win (off : BitVec 8) (w : Word) (s : State) : (s.withHostWrite off w).win = s.win := rfl
@[simp] theorem State.withHostWrite_autoRun (off : BitVec 8) (w : Word) (s : State) : (s.withHostWrite off w).autoRun = s.autoRun := rfl
@[simp] theorem State.withHostWrite_ieDone (off : BitVec 8) (w : Word) (s : State) : (s.withHostWrite off w).ieDone = s.ieDone := rfl
@[simp] theorem State.withHostWrite_ieErr (off : BitVec 8) (w : Word) (s : State) : (s.withHostWrite off w).ieErr = s.ieErr := rfl
@[simp] theorem State.withHostWrite_rate (off : BitVec 8) (w : Word) (s : State) : (s.withHostWrite off w).rate = s.rate := rfl
@[simp] theorem State.withHostWrite_thresh (off : BitVec 8) (w : Word) (s : State) : (s.withHostWrite off w).thresh = s.thresh := rfl
@[simp] theorem State.withHostWrite_mapBin (off : BitVec 8) (w : Word) (s : State) : (s.withHostWrite off w).mapBin = s.mapBin := rfl
@[simp] theorem State.withHostWrite_mapFreq (off : BitVec 8) (w : Word) (s : State) : (s.withHostWrite off w).mapFreq = s.mapFreq := rfl
@[simp] theorem State.withHostWrite_engine (off : BitVec 8) (w : Word) (s : State) : (s.withHostWrite off w).engine = s.engine := rfl
@[simp] theorem State.withHostWrite_done (off : BitVec 8) (w : Word) (s : State) : (s.withHostWrite off w).done = s.done := rfl
@[simp] theorem State.withHostWrite_fill (off : BitVec 8) (w : Word) (s : State) : (s.withHostWrite off w).fill = s.fill := rfl
@[simp] theorem State.withHostWrite_err (off : BitVec 8) (w : Word) (s : State) : (s.withHostWrite off w).err = s.err := rfl
@[simp] theorem State.withHostWrite_fb (off : BitVec 8) (w : Word) (s : State) : (s.withHostWrite off w).fb = s.fb := rfl
@[simp] theorem State.withHostWrite_res (off : BitVec 8) (w : Word) (s : State) : (s.withHostWrite off w).res = s.res := rfl
@[simp] theorem State.withHostWrite_resp (off : BitVec 8) (w : Word) (s : State) : (s.withHostWrite off w).resp = s.resp := rfl
@[simp] theorem State.withHostWrite_hostQ (off : BitVec 8) (w : Word) (s : State) : (s.withHostWrite off w).hostQ = .write off 4 w :: s.hostQ := rfl
@[simp] theorem State.withHostWrite_streamQ (off : BitVec 8) (w : Word) (s : State) : (s.withHostWrite off w).streamQ = s.streamQ := rfl
@[simp] theorem State.withHostWrite_sched (off : BitVec 8) (w : Word) (s : State) : (s.withHostWrite off w).sched = .host :: s.sched := rfl

@[simp] theorem State.withHostWrite_lexp (off : BitVec 8) (w : Word) (s : State) : (s.withHostWrite off w).lexp = s.lexp := rfl
@[simp] theorem State.withHostWrite_frameSize (off : BitVec 8) (w : Word) (s : State) : (s.withHostWrite off w).frameSize = s.frameSize := rfl
@[simp] theorem State.withHostWrite_binOperand (off : BitVec 8) (w : Word) (s : State) : (s.withHostWrite off w).binOperand = s.binOperand := rfl
@[simp] theorem State.withHostWrite_busy (off : BitVec 8) (w : Word) (s : State) : (s.withHostWrite off w).busy = s.busy := rfl
@[simp] theorem State.withHostWrite_full (off : BitVec 8) (w : Word) (s : State) : (s.withHostWrite off w).full = s.full := rfl

/-! A stream offer put first changes the stream's queue and the schedule alone. -/

@[simp] theorem State.withStreamOffer_log2n (d : BitVec 16) (s : State) : (s.withStreamOffer d).log2n = s.log2n := rfl
@[simp] theorem State.withStreamOffer_win (d : BitVec 16) (s : State) : (s.withStreamOffer d).win = s.win := rfl
@[simp] theorem State.withStreamOffer_autoRun (d : BitVec 16) (s : State) : (s.withStreamOffer d).autoRun = s.autoRun := rfl
@[simp] theorem State.withStreamOffer_ieDone (d : BitVec 16) (s : State) : (s.withStreamOffer d).ieDone = s.ieDone := rfl
@[simp] theorem State.withStreamOffer_ieErr (d : BitVec 16) (s : State) : (s.withStreamOffer d).ieErr = s.ieErr := rfl
@[simp] theorem State.withStreamOffer_rate (d : BitVec 16) (s : State) : (s.withStreamOffer d).rate = s.rate := rfl
@[simp] theorem State.withStreamOffer_thresh (d : BitVec 16) (s : State) : (s.withStreamOffer d).thresh = s.thresh := rfl
@[simp] theorem State.withStreamOffer_mapBin (d : BitVec 16) (s : State) : (s.withStreamOffer d).mapBin = s.mapBin := rfl
@[simp] theorem State.withStreamOffer_mapFreq (d : BitVec 16) (s : State) : (s.withStreamOffer d).mapFreq = s.mapFreq := rfl
@[simp] theorem State.withStreamOffer_engine (d : BitVec 16) (s : State) : (s.withStreamOffer d).engine = s.engine := rfl
@[simp] theorem State.withStreamOffer_done (d : BitVec 16) (s : State) : (s.withStreamOffer d).done = s.done := rfl
@[simp] theorem State.withStreamOffer_fill (d : BitVec 16) (s : State) : (s.withStreamOffer d).fill = s.fill := rfl
@[simp] theorem State.withStreamOffer_err (d : BitVec 16) (s : State) : (s.withStreamOffer d).err = s.err := rfl
@[simp] theorem State.withStreamOffer_fb (d : BitVec 16) (s : State) : (s.withStreamOffer d).fb = s.fb := rfl
@[simp] theorem State.withStreamOffer_res (d : BitVec 16) (s : State) : (s.withStreamOffer d).res = s.res := rfl
@[simp] theorem State.withStreamOffer_resp (d : BitVec 16) (s : State) : (s.withStreamOffer d).resp = s.resp := rfl
@[simp] theorem State.withStreamOffer_hostQ (d : BitVec 16) (s : State) : (s.withStreamOffer d).hostQ = s.hostQ := rfl
@[simp] theorem State.withStreamOffer_streamQ (d : BitVec 16) (s : State) : (s.withStreamOffer d).streamQ = d :: s.streamQ := rfl
@[simp] theorem State.withStreamOffer_sched (d : BitVec 16) (s : State) : (s.withStreamOffer d).sched = .stream :: s.sched := rfl

@[simp] theorem State.withStreamOffer_lexp (d : BitVec 16) (s : State) : (s.withStreamOffer d).lexp = s.lexp := rfl
@[simp] theorem State.withStreamOffer_frameSize (d : BitVec 16) (s : State) : (s.withStreamOffer d).frameSize = s.frameSize := rfl
@[simp] theorem State.withStreamOffer_binOperand (d : BitVec 16) (s : State) : (s.withStreamOffer d).binOperand = s.binOperand := rfl
@[simp] theorem State.withStreamOffer_busy (d : BitVec 16) (s : State) : (s.withStreamOffer d).busy = s.busy := rfl
@[simp] theorem State.withStreamOffer_full (d : BitVec 16) (s : State) : (s.withStreamOffer d).full = s.full := rfl

end Sys2Proof.Machine
end

