-- ==== Sys2Proof/Laws/Ops.lean ====
section
/-! SUPPORT. For each shared operation, once, everything it can do: later proofs cite these and do not unfold it. -/

namespace Sys2Proof.Machine

/-! Sequencing. -/

@[simp] theorem andThen_next (s : State) (k : State → Host.Outcome State Fault Refusal) :
    andThen (.next s) k = k s := rfl

theorem andThen_eq_next {o : Host.Outcome State Fault Refusal} {k : State → Host.Outcome State Fault Refusal}
    {t : State} : andThen o k = .next t ↔ ∃ s, o = .next s ∧ k s = .next t := by
  cases o <;> simp [andThen]

/-! Reset. -/

theorem reset_busy : State.reset.busy = false := rfl

/-! Acceptance and rejection (40 R130). -/

theorem State.unlessBusy_of_idle {s : State} (h : s.Idle) (k : State → State) : s.unlessBusy k = k s := by
  have h' : s.engine = none := h
  simp [State.unlessBusy, State.busy, h']

theorem State.unlessBusy_of_busy {s : State} (h : s.busy = true) (k : State → State) :
    s.unlessBusy k = s.raise .busyCmd := by
  simp [State.unlessBusy, h]

theorem State.ifFull_of_full {s : State} (h : s.fill = s.frameSize) (k : State → State) : s.ifFull k = k s := by
  simp [State.ifFull, State.full, h]

theorem State.ifFull_of_not_full {s : State} (h : s.fill ≠ s.frameSize) (k : State → State) :
    s.ifFull k = s.raise .notFull := by
  simp [State.ifFull, State.full, h]

theorem State.unlessBusyWrite_of_idle {s : State} (h : s.Idle) (k : State → State) :
    s.unlessBusyWrite k = k s := by
  have h' : s.engine = none := h
  simp [State.unlessBusyWrite, State.busy, h']

theorem State.unlessBusyWrite_of_busy {s : State} (h : s.busy = true) (k : State → State) :
    s.unlessBusyWrite k = s.raise .busyWrite := by
  simp [State.unlessBusyWrite, h]

/-! Pushes (40 R139, R142). -/

/-- AUTO_RUN starts a RUN exactly when the frame is full. -/
theorem State.autoStart_eq (s : State) :
    s.autoStart = if s.fill = s.frameSize ∧ s.autoRun = true then s.accept .run else s := by
  by_cases h : s.fill = s.frameSize <;> cases hb : s.autoRun <;> simp [State.autoStart, State.full, h, hb]

theorem State.push_eq_next {v : Sample} {s t : State} :
    s.push v = .next t ↔ s.fill < Config.nMax ∧ t = (s.store v).autoStart := by
  unfold State.push
  split <;> simp_all [eq_comm]

/-- A push from the host drops the sample or pushes it. -/
theorem State.regPush_eq_next {v : Sample} {s t : State} (h : s.regPush v = .next t) :
    ((s.busy = true ∨ s.full = true) ∧ t = s.raise .overflow) ∨
    (s.busy = false ∧ s.full = false ∧ s.fill < Config.nMax ∧ t = (s.store v).autoStart) := by
  unfold State.regPush at h
  split at h
  · rename_i hc; cases h; exact .inl ⟨by simpa using hc, rfl⟩
  · rename_i hc
    rw [State.push_eq_next] at h
    simp only [Bool.or_eq_true, not_or, Bool.not_eq_true] at hc
    exact .inr ⟨hc.1, hc.2, h⟩

/-! The engine (40 R132, R133). -/

/-- A completion publishes what the accepted command computes; an idle engine changes nothing. -/
theorem complete_eq_next {s t : State} (h : complete s = .next t) :
    (s.engine = none ∧ t = s) ∨
    (∃ op r, s.engine = some op ∧ execute op s = .ok r ∧ t = s.publish op r) := by
  unfold complete at h
  split at h
  · rename_i he; cases h; exact .inl ⟨he, rfl⟩
  · rename_i op he
    split at h
    · rename_i r hr; cases h; exact .inr ⟨op, r, he, hr, rfl⟩
    · cases h

theorem complete_of_ok {s : State} {op : EngineCmd} {r : Results} (he : s.engine = some op)
    (hr : execute op s = .ok r) : complete s = .next (s.publish op r) := by
  simp [complete, he, hr]

/-! The bus (20 R72, R73). -/

/-- A transaction is answered with the error response, or is a read, or is a register write. -/
theorem hostAccess_eq (op : HostOp) (s : State) :
    (op.wellFormed = false ∧ hostAccess op s = .next { s with resp := .busError }) ∨
    (∃ off, op = .read off ∧ hostAccess op s = .next { s with resp := .data (registerRead (regAt off) s) }) ∨
    (∃ off w, op = .write off 4 w ∧ hostAccess op s = registerWrite (regAt off) w { s with resp := .ok }) := by
  cases op with
  | write off size w =>
    by_cases h : off.toNat % 4 = 0 ∧ size = 4
    · obtain ⟨h1, rfl⟩ := h
      exact .inr (.inr ⟨off, w, rfl, by simp [hostAccess, h1]⟩)
    · refine .inl ⟨?_, by simp [hostAccess, h]⟩
      simp only [HostOp.wellFormed, Bool.and_eq_false_iff, beq_eq_false_iff_ne]
      tauto
  | read off =>
    by_cases h : off.toNat % 4 = 0
    · exact .inr (.inl ⟨off, rfl, by simp [hostAccess, h]⟩)
    · exact .inl ⟨by simp [HostOp.wellFormed, h], by simp [hostAccess, h]⟩

/-- An issue runs what it decodes to, or raises ILLEGAL_CMD. -/
theorem issue_eq (q : Issue) (s : State) :
    (∃ i, decode q = .ok i ∧ issue q s = exec i s) ∨
    ((∃ r, decode q = .reject r) ∧ issue q s = .next (s.raise .illegalCmd)) := by
  cases h : decode q with
  | ok i => exact .inl ⟨i, rfl, by simp [issue, h]⟩
  | reject r => exact .inr ⟨⟨r, rfl⟩, by simp [issue, h]⟩

/-! The step (00 R6). -/

/-- A step is an idle one or one agent's turn. -/
theorem step_eq (s : State) :
    (s.nextAgent = none ∧ step s = .next s) ∨ (∃ a, s.nextAgent = some a ∧ step s = takeTurn a s.turnUsed) := by
  cases h : s.nextAgent with
  | none => exact .inl ⟨rfl, by simp [step, h]⟩
  | some a => exact .inr ⟨a, rfl, by simp [step, h]⟩

/-! Integer operations (00 R10). -/

theorem isqrtBits_spec (x k r : Nat) (hr : r * r ≤ x) (hx : x < (r + 2 ^ k) * (r + 2 ^ k)) :
    isqrtBits x k r * isqrtBits x k r ≤ x ∧ x < (isqrtBits x k r + 1) * (isqrtBits x k r + 1) := by
  induction k generalizing r with
  | zero => exact ⟨hr, by simpa [isqrtBits] using hx⟩
  | succ k ih =>
    simp only [isqrtBits]
    split_ifs with h
    · refine ih _ h ?_
      rw [Nat.add_assoc, ← Nat.two_mul, ← Nat.pow_succ']
      exact hx
    · exact ih r hr (Nat.lt_of_not_le h)

/-- `isqrt(x)` is the largest r with r*r <= x. -/
theorem isqrt_spec (x : Nat) : isqrt x * isqrt x ≤ x ∧ x < (isqrt x + 1) * (isqrt x + 1) := by
  refine isqrtBits_spec x _ 0 (Nat.zero_le x) ?_
  have h : x < 2 ^ (Nat.log2 x + 1) := Nat.lt_log2_self
  have h1 : 1 ≤ 2 ^ (Nat.log2 x + 1) := Nat.one_le_two_pow
  simp only [Nat.zero_add]
  nlinarith

theorem isqrt_eq_sqrt (x : Nat) : isqrt x = Nat.sqrt x :=
  Nat.eq_sqrt.mpr (isqrt_spec x)

@[simp] theorem roundShift_zero (x : Int) : roundShift x 0 = x := rfl

/-- `RoundShift` is the nearest integer to x / 2^n, halves going up. -/
theorem roundShift_spec (x : Int) (n : Nat) :
    2 ^ (n + 1) * roundShift x (n + 1) ≤ x + 2 ^ n ∧ x + 2 ^ n < 2 ^ (n + 1) * roundShift x (n + 1) + 2 ^ (n + 1) := by
  have hp : (0 : Int) < 2 ^ (n + 1) := by positivity
  have h1 := Int.mul_ediv_add_emod (x + 2 ^ n) (2 ^ (n + 1))
  have h2 := Int.emod_nonneg (x + 2 ^ n) hp.ne'
  have h3 := Int.emod_lt_of_pos (x + 2 ^ n) hp
  simp only [roundShift]
  constructor <;> linarith

end Sys2Proof.Machine
end

