-- ==== Sys2Proof/Laws/PerInstr.lean ====
section
/-! SUPPORT. Statements made per instruction, about the instruction as syntax: one lemma per constructor. -/

namespace Sys2Proof.Laws

/-- An instruction's bytes are as many as its port takes: a command and a register push are one bus word, a stream push
is one 16-bit handshake (30 R100, R118). -/
def EncodedLength.Statement (i : Instr) : Prop := (encode i).bytes.length = (encode i).port.byteCount

theorem EncodedLength.nop : EncodedLength.Statement .nop := rfl

theorem EncodedLength.run : EncodedLength.Statement .run := rfl

theorem EncodedLength.gate : EncodedLength.Statement .gate := rfl

theorem EncodedLength.spectrum : EncodedLength.Statement .spectrum := rfl

theorem EncodedLength.bin2freq : EncodedLength.Statement .bin2freq := rfl

theorem EncodedLength.mapnote : EncodedLength.Statement .mapnote := rfl

theorem EncodedLength.flush : EncodedLength.Statement .flush := rfl

theorem EncodedLength.samplePush (sample ignored : BitVec 16) : EncodedLength.Statement (.samplePush sample ignored) := rfl

theorem EncodedLength.samplePush2 (first second : BitVec 16) : EncodedLength.Statement (.samplePush2 first second) := rfl

theorem EncodedLength.streamPush (sample : BitVec 16) : EncodedLength.Statement (.streamPush sample) := rfl

end Sys2Proof.Laws
end

