-- ==== Sys2Proof/Tests/Slice0.lean ====
section
/-! SUPPORT. The model's own tests. Expected values are those of the spec's vectors (95_test_vectors.md, named V-… below),
of its rules' examples, or words written out from its encodings. The theorems named `witness_…` show that the hypotheses of
a statement of Certificates/Slice0/Obligations.lean can be met together, each clause at a boundary of its range. -/

namespace Sys2Proof.Tests

open Sys2Proof.Machine

/-- The next state, if there is one. -/
def after (o : Host.Outcome State Fault Refusal) : Option State :=
  match o with
  | .next s => some s
  | _ => none

/-- A frame buffer that holds the samples from index 0 on. -/
def bufferOf (xs : List Sample) : FrameBuffer := (List.range xs.length).zip xs

/-- A block that holds the samples, with N = 2^l and AUTO_RUN = 0. -/
def holding (l : BitVec 4) (xs : List Sample) : State :=
  { State.reset with log2n := l, autoRun := false, fill := xs.length, fb := bufferOf xs }

/-- The sine frame of V-R-2. -/
def sine8 : List Sample := [0, 7071, 10000, 7071, 0, -7071, -10000, -7071]

/-- The tie frame of V-L1-10. -/
def tie8 : List Sample := [-2, 0, -2, 0, 0, 0, 2, 0]

/-! Well-formedness: one ill-formed term for each check. -/

theorem test_reserved_command_bit_refused : commandWordLegal 0x00000100 = false := by decide
theorem test_opcode_seven_refused : commandWordLegal 0x00000007 = false := by decide
theorem test_flush_word_legal : commandWordLegal 0x00000006 = true := by decide
theorem test_misaligned_write_refused : HostOp.wellFormed (.write 0x06 4 0) = false := by decide
theorem test_narrow_write_refused : HostOp.wellFormed (.write 0x04 2 0) = false := by decide
theorem test_misaligned_read_refused : HostOp.wellFormed (.read 0x01) = false := by decide
theorem test_aligned_access_taken : HostOp.wellFormed (.write 0xFC 4 0) = true := by decide

/-! Decoding: words written out from 30 R101, R102 and R107. -/

theorem test_decode_nop : decode (.cmd 0b00000000000000000000000000000000) = .ok .nop := by decide
theorem test_decode_run : decode (.cmd 0b00000000000000000000000000000001) = .ok .run := by decide
theorem test_decode_gate : decode (.cmd 0b00000000000000000000000000000010) = .ok .gate := by decide
theorem test_decode_spectrum : decode (.cmd 0b00000000000000000000000000000011) = .ok .spectrum := by decide
theorem test_decode_bin2freq : decode (.cmd 0b00000000000000000000000000000100) = .ok .bin2freq := by decide
theorem test_decode_mapnote : decode (.cmd 0b00000000000000000000000000000101) = .ok .mapnote := by decide
theorem test_decode_flush : decode (.cmd 0b00000000000000000000000000000110) = .ok .flush := by decide
theorem test_decode_illegal : decode (.cmd 0x00000007) = .reject (.illegalCommand 7) := by decide
/-- The push of -1 with ignored bits set: 0xABCD in [31:16], 0xFFFF in [15:0]. -/
theorem test_decode_samplePush :
    decode (.samplePush 0b10101011110011011111111111111111) = .ok (.samplePush 0xFFFF 0xABCD) := by decide
theorem test_decode_samplePush2 :
    decodeBytes .samplePush2 [0x7F, 0x00, 0x00, 0x80] = .ok (.samplePush2 0x007F 0x8000) := by decide
theorem test_decode_streamPush : decodeBytes .stream [0xE8, 0x03] = .ok (.streamPush 1000) := by decide
theorem test_decode_short_word : decodeBytes .cmd [0, 0] = .reject (.wrongLength 2) := by decide
theorem test_table_word_gate : decodeTableWord 32 2 = some .gate := by decide
theorem test_table_word_stream : decodeTableWord 16 0x8000 = some (.streamPush 0x8000) := by decide

/-! Instructions, on small states. -/

/-- V-C-2. -/
theorem test_nop_while_busy :
    after (hostAccess (.write 0x10 4 0) { State.reset with engine := some .mapnote }) =
      some { State.reset with engine := some .mapnote, resp := .ok } := by decide

/-- V-C-8. -/
theorem test_flush : (after (exec .flush { State.reset with fill := 3 })).map (·.fill) = some 0 := by decide

/-- V-C-7. -/
theorem test_flush_while_busy :
    (after (exec .flush { State.reset with engine := some .mapnote, fill := 4 })).map (fun s => (s.fill, s.err)) =
      some (4, 0x02#7) := by decide

/-- V-C-9. -/
theorem test_run_not_full : (after (exec .run State.reset)).map (·.err) = some 0x04#7 := by decide

/-- V-R-2. -/
theorem test_run_sine :
    (after (complete { holding 3 sine8 with rate := 3520, engine := some .run })).map
      (fun s => (s.res.energy, s.res.peakBin, s.res.peakMag, s.res.freq, s.res.noteKey)) =
      some (399996164, 1, 1098507155, 1802240, 49) := by decide +kernel

/-- V-G-1: RMS equal to T passes the gate. -/
theorem test_gate_pass :
    (after (complete { holding 2 [200, -200, 200, -200] with engine := some .gate })).map
      (fun s => (s.res.code, s.res.energy, s.res.rms)) = some (.gatePass, 160000, 200) := by decide +kernel

/-- V-G-2. -/
theorem test_gate_closed :
    (after (complete { holding 2 [200, -200, 200, -199] with engine := some .gate })).map
      (fun s => (s.res.code, s.res.energy, s.res.rms)) = some (.belowThreshold, 159601, 199) := by decide +kernel

/-- V-S-1: bins 1 and 3 tie, bin 1 wins. -/
theorem test_spectrum_tie :
    (after (complete { holding 3 tie8 with win := .hamming, rate := 8000, engine := some .spectrum })).map
      (fun s => (s.res.peakBin, s.res.peakMag, s.res.freq, s.fill)) = some (1, 117849, 4096000, 8) := by
  decide +kernel

/-- V-S-3: bin N/2 is the largest and is not searched. -/
theorem test_spectrum_lower_half :
    (after (complete { holding 2 [1000, -1000, 1000, -1000] with engine := some .spectrum })).map
      (fun s => (s.res.peakBin, s.res.peakMag)) = some (1, 69511425) := by decide +kernel

/-- V-S-5. -/
theorem test_bin2freq :
    (after (complete { State.reset with mapBin := 41, engine := some .bin2freq })).map
      (fun s => (s.res.code, s.res.freq)) = some (.freqDone, 1808100) := by decide +kernel

/-- V-S-8. -/
theorem test_bin2freq_out_of_range :
    (after (exec .bin2freq { State.reset with mapBin := 2048 })).map (·.err) = some 0x40#7 := by decide +kernel

/-- V-M-14: a count of 12 wraps to the next octave. -/
theorem test_mapnote_wrap :
    (after (complete { State.reset with mapFreq := 2082223, engine := some .mapnote })).map
      (fun s => (s.res.noteKey.toInt, s.res.noteName, s.res.noteFreq, s.res.noteDev.toInt)) =
      some (52, 0x45, 2143237, -61014) := by decide +kernel

/-- V-M-2: the lowest key, a negative octave. -/
theorem test_mapnote_lowest :
    (after (complete { State.reset with mapFreq := 1, engine := some .mapnote })).map
      (fun s => (s.res.noteKey, s.res.notePc, s.res.noteOct, s.res.noteFreq)) =
      some (0xFFFFFF38, 4, 0xFFFFFFEF, 1) := by decide +kernel

/-- V-P-2: bits [31:16] are ignored. -/
theorem test_samplePush :
    (after (hostAccess (.write 0x1C 4 0xABCD8000) State.reset)).map (fun s => (s.fb, s.fill)) =
      some ([(0, 0x8000#16)], 1) := by decide +kernel

/-- V-P-5. -/
theorem test_samplePush_full :
    (after (exec (.samplePush 5 0) (holding 2 [0, 0, 0, 0]))).map (fun s => (s.err, s.fill)) = some (0x10#7, 4) := by
  decide +kernel

/-- V-P-3. -/
theorem test_samplePush2 :
    (after (hostAccess (.write 0x20 4 0x8000007F) State.reset)).map (fun s => (s.fb, s.fill)) =
      some ([(0, 127#16), (1, 0x8000#16)], 2) := by decide +kernel

/-- V-P-4: the first sample starts RUN, the second meets BUSY. -/
theorem test_samplePush2_straddles :
    (after (exec (.samplePush2 4 9) { holding 2 [1, 2, 3] with autoRun := true })).map
      (fun s => (statusWord s, s.err, s.fb)) = some (0x00040015, 0x10#7, bufferOf [1, 2, 3, 4]) := by decide +kernel

/-- V-P-7. -/
theorem test_streamPush :
    (after (exec (.streamPush 1000) { holding 1 [7] with autoRun := true })).map
      (fun s => (s.fb, s.engine, s.sReady)) = some (bufferOf [7, 1000], some .run, false) := by decide +kernel

/-- V-P-8: held, not dropped. -/
theorem test_streamPush_held :
    (after (step { State.reset with engine := some .run, streamQ := [5], sched := [.stream] })).map
      (fun s => (s.streamQ, s.err, s.fill)) = some ([5], 0#7, 0) := by decide +kernel

/-! The bus. -/

/-- V-C-12. -/
theorem test_status_after_accept :
    statusWord ({ State.reset with fill := 4096 }.accept .run) = 0x10000015 := by decide +kernel

/-- V-C-18. -/
theorem test_ctrl_illegal_window :
    (after (hostAccess (.write 0x04 4 0x00000123) State.reset)).map (·.err) = some 0x08#7 := by decide +kernel

/-- V-C-31: the bus error changes no state of the block. -/
theorem test_narrow_write_is_bus_error :
    after (hostAccess (.write 0x04 2 0) State.reset) = some { State.reset with resp := .busError } := by decide

/-- V-E-1: the error interrupt and STATUS.IRQ. -/
theorem test_error_interrupt :
    (after (exec .run { State.reset with log2n := 2, ieErr := true })).map statusWord = some 0x00000008 := by
  decide +kernel

/-- The interface's first instruction after reset. -/
theorem test_placed_word_runs :
    (after (step (State.reset.withFetchWord 32 1))).map (fun s => (s.err, s.hostQ, s.sched)) =
      some (0x04#7, [], []) := by decide +kernel

/-! Witnesses of the statements' hypotheses. -/

/-- Idle, N = 2, one sample short of full. -/
def nearlyFull : State := holding 1 [300]

/-- Idle, N = 2, full. -/
def full2 : State := holding 1 [5000, -3000]

/-- The samples of `full2` as a function of the index. -/
def full2Samples (i : Nat) : Sample := if i = 0 then 5000 else -3000

/-- RUN in flight on the frame of `full2`, with the host, the stream source and the engine due in turn. -/
def inFlight : State :=
  { full2 with engine := some .run, hostQ := [.write 0x0C 4 5], streamQ := [7], sched := [.host, .stream, .engine] }

theorem witness_DecodeInvertsEncode :
    Instr.wellFormed (.samplePush 0x8000 0xFFFF) = true ∧ Instr.wellFormed .flush = true := by decide

theorem witness_EncodeInvertsDecode :
    decode (.cmd 6) = .ok .flush ∧ decode (.samplePush 0xFFFFFFFF) = .ok (.samplePush 0xFFFF 0xFFFF) := by decide

theorem witness_StepRunsTheDecodedInstruction :
    (∀ p ∈ [((0x10 : BitVec 8), Issue.cmd 6), (0x1C, .samplePush 6), (0x20, .samplePush2 6)],
      State.nextAgent { State.reset with hostQ := [.write p.1 4 6] } = some .host ∧
      p ∈ [((0x10 : BitVec 8), Issue.cmd 6), (0x1C, .samplePush 6), (0x20, .samplePush2 6)]) ∧
    decode (.cmd 6) = .ok .flush ∧ decode (.samplePush 6) = .ok (.samplePush 6 0) ∧
    decode (.samplePush2 6) = .ok (.samplePush2 6 0) ∧
    State.nextAgent { State.reset with streamQ := [9] } = some .stream ∧
    decode (.stream 9) = .ok (.streamPush 9) := by decide

theorem witness_PlacedTableWordRunsNext :
    decodeTableWord 32 6 = some .flush ∧ decodeTableWord 16 0xFFFF = some (.streamPush 0xFFFF) ∧
    decodeTableWord 32 0xFFFFFFFF = some (.samplePush 0xFFFF 0xFFFF) := by decide

theorem witness_BusErrorChangesNothing :
    (0x06 : BitVec 8).toNat % 4 ≠ 0 ∧ (2 : Nat) ≠ 4 ∧ (0xFC : BitVec 8).toNat % 4 = 0 := by decide

theorem witness_ReadsHaveNoSideEffect :
    (0x3C : BitVec 8).toNat % 4 = 0 ∧ OffsetReserved 0x2C ∧ OffsetReserved 0x3C ∧ OffsetReserved 0x78 ∧
    OffsetReserved 0xFC ∧ (0x00 : BitVec 8).toNat % 4 = 0 ∧ regAt 0x00 = some .id ∧ (0x74 : BitVec 8).toNat % 4 = 0 ∧
    regAt 0x74 = some .noteDev := by decide

theorem witness_ReadOnlyAndReservedWritesIgnored :
    (0x40 : BitVec 8).toNat % 4 = 0 ∧ 0x40 ≤ (0x40 : BitVec 8).toNat ∧ OffsetReserved 0x2C ∧
    regAt 0x04 = some .ctrl ∧ regAt 0x28 = some .mapFreq ∧
    (0xFFFC000C : Word) &&& regMask .ctrl = 0x0000000C &&& regMask .ctrl := by decide

theorem witness_StatusWordFields : State.reset.Inv ∧ inFlight.Inv := by decide +kernel

/-- Results of both ends of the code and opcode tables. -/
theorem witness_ResultWordFields :
    State.reset.res.code = .none ∧ State.reset.res.srcOp = none ∧
    (mapnoteResults State.reset).code = .invalidFreq ∧
    ((State.reset.publish .mapnote (mapnoteResults State.reset)).res.srcOp = some .mapnote) := by decide +kernel

theorem witness_IrqIsALevelAndItsSourcesClear :
    State.reset.Idle ∧ State.reset.ieDone = false ∧ State.reset.ieErr = false := by decide

theorem witness_ConfigurationWrites :
    inFlight.busy = true ∧ full2.Idle ∧
    (0x0D : Word).extractLsb' 0 4 ≠ 0#4 ∧ 12 < ((0x0D : Word).extractLsb' 0 4).toNat ∧
    (0x00 : Word).extractLsb' 0 4 = 0#4 ∧ 1 < ((0x21 : Word).extractLsb' 4 2).toNat ∧
    (1 ≤ ((0x01 : Word).extractLsb' 0 4).toNat ∧ ((0x01 : Word).extractLsb' 4 2).toNat ≤ 1) ∧
    (((0x1C : Word).extractLsb' 0 4).toNat ≤ 12 ∧ ((0x1C : Word).extractLsb' 4 2).toNat ≤ 1) ∧
    (0x00100000 : Word).extractLsb' 0 20 = 0#20 ∧ (0x00000001 : Word).extractLsb' 0 20 ≠ 0#20 := by
  decide +kernel

theorem witness_NopChangesNothing : (0x00000100 : Word).extractLsb' 0 8 = 0#8 ∧ (0x00000100 : Word) ≠ 0 := by decide

/-- Each test of a CMD write decides on some state and word, the later ones at the bounds of the earlier. -/
theorem witness_CmdWriteFollowsPriority :
    (6 < ((0x07 : Word).extractLsb' 0 8).toNat ∧ (0x80000001 : Word).extractLsb' 8 24 ≠ 0#24) ∧
    (inFlight.busy = true ∧ full2.busy = false) ∧ nearlyFull.fill ≠ nearlyFull.frameSize ∧
    State.reset.frameSize / 2 ≤ ({ State.reset with mapBin := 2048 } : State).mapBin.toNat ∧
    ¬State.reset.frameSize / 2 ≤ ({ State.reset with mapBin := 2047 } : State).mapBin.toNat := by decide +kernel

theorem witness_FlushEmptiesTheFrame : full2.Idle ∧ inFlight.busy = true := by decide

theorem witness_SamplePushStoresOrDrops :
    (inFlight.Inv ∧ inFlight.busy = true) ∧ (full2.Inv ∧ full2.fill = full2.frameSize) ∧
    (nearlyFull.Inv ∧ nearlyFull.Idle ∧ nearlyFull.fill + 1 = nearlyFull.frameSize) := by decide +kernel

theorem witness_SamplePush2PushesInOrder :
    (inFlight.Inv ∧ inFlight.busy = true) ∧
    (nearlyFull.Inv ∧ nearlyFull.Idle ∧ nearlyFull.fill + 1 = nearlyFull.frameSize) ∧
    ((holding 1 []).Inv ∧ (holding 1 []).Idle ∧ (holding 1 []).fill + 2 = (holding 1 []).frameSize) := by
  decide +kernel

/-- Idle and full, with a sample offered on the stream. -/
def streamWaits : State := { full2 with streamQ := [7] }

theorem witness_StreamPushStoresOrHolds :
    (nearlyFull.Inv ∧ nearlyFull.Idle ∧ nearlyFull.fill < nearlyFull.frameSize) ∧
    (full2.Inv ∧ full2.fill = full2.frameSize) := by decide +kernel

/-- The other ways to be held: busy, and a stream turn taken while busy and while full. -/
theorem witness_StreamPushStoresOrHolds_held :
    (inFlight.Inv ∧ inFlight.busy = true) ∧
    (inFlight.turnUsed.nextAgent = some .stream ∧ inFlight.turnUsed.streamQ ≠ [] ∧ inFlight.turnUsed.busy = true) ∧
    (streamWaits.nextAgent = some .stream ∧ streamWaits.streamQ ≠ [] ∧
      streamWaits.frameSize ≤ streamWaits.fill) := by decide +kernel

theorem witness_FrameKeepsPushOrder :
    (holding 1 []).Inv ∧ (holding 1 []).Idle ∧ (holding 1 []).fill = 0 ∧
    [(1 : BitVec 16), 2].length ≤ (holding 1 []).frameSize := by decide +kernel

/-- For GATE, RUN and SPECTRUM: busy, not full, and a held frame. -/
theorem witness_GateMeasuresTheHeldFrame :
    inFlight.busy = true ∧ (nearlyFull.Idle ∧ nearlyFull.fill ≠ nearlyFull.frameSize) ∧
    (full2.ExponentLegal ∧ full2.Idle ∧ full2.HoldsFrame full2Samples) := by decide +kernel

/-- The samples of the sine frame as a function of the index. -/
def sine8Samples (i : Nat) : Sample := sine8.getD i 0

/-- A closed gate, an open gate with its peak at bin 0, and an open gate with its peak at bin 1. -/
theorem witness_RunProcessesTheHeldFrame :
    ((holding 1 [0, 0]).HoldsFrame (fun _ => 0) ∧ gateOpen (energy (frameOf 2 fun _ => 0)) 200 2 = false) ∧
    (full2.HoldsFrame full2Samples ∧ gateOpen (energy (frameOf 2 full2Samples)) 200 2 = true ∧
      (spectralPeak .hann 1 (frameOf 2 full2Samples)).1 = 0) ∧
    ((holding 3 sine8).HoldsFrame sine8Samples ∧ gateOpen (energy (frameOf 8 sine8Samples)) 200 8 = true ∧
      (spectralPeak .hann 3 (frameOf 8 sine8Samples)).1 = 1 ∧ (holding 3 sine8).rate ≠ 0) ∧
    ({ nearlyFull with autoRun := true }.Inv ∧ nearlyFull.Idle ∧ nearlyFull.fill + 1 = nearlyFull.frameSize) ∧
    ({ nearlyFull with autoRun := true } : State).autoRun = true := by decide +kernel

theorem witness_SpectrumFindsThePeak :
    (holding 3 sine8).ExponentLegal ∧ (holding 3 sine8).Idle ∧ (holding 3 sine8).HoldsFrame sine8Samples := by
  decide +kernel

theorem witness_Bin2FreqConvertsTheOperand :
    State.reset.ExponentLegal ∧ State.reset.Idle ∧ inFlight.busy = true ∧
    State.reset.frameSize / 2 ≤ ({ State.reset with mapBin := 2048 } : State).mapBin.toNat ∧
    ({ State.reset with mapBin := 2047 } : State).mapBin.toNat < State.reset.frameSize / 2 := by decide +kernel

theorem witness_MapNoteMapsTheOperand :
    State.reset.Idle ∧ State.reset.mapFreq = 0 ∧ ({ State.reset with mapFreq := 1 } : State).mapFreq ≠ 0 ∧
    inFlight.busy = true := by decide

theorem witness_EnergyIsExactAndFits : (4096 : Nat) ≤ 4096 := by decide

theorem witness_GateTestIsExact : 0 < (2 : Nat) ∧ 2 * 2 ^ 30 ≤ 2 * 2 ^ 30 := by decide

theorem witness_WindowRomIsTheFormulaRounded :
    (1 ≤ 1 ∧ 1 ≤ 12 ∧ 1 < 2 ^ 1) ∧ (1 ≤ 12 ∧ 12 ≤ 12 ∧ 4095 < 2 ^ 12) := by decide

theorem witness_WindowsAreSymmetric : 1 ≤ 12 ∧ 4095 < 2 ^ 12 := by decide

theorem witness_TwiddleRomIsTheFormulaRounded : 2047 < 2048 := by decide

theorem witness_LoadIsBitReversed :
    [(1 : Int), 2].length = 2 ^ 1 ∧ 1 < 2 ^ 1 ∧ [(1 : Int), 2][1]? = some 2 := by decide

theorem witness_StageIsItsButterflies :
    1 ≤ 1 ∧ 1 ≤ 2 ∧ 2 ≤ 12 ∧ (List.replicate 4 (⟨1, 0⟩ : Cplx)).length = 2 ^ 2 ∧ 1 < 2 ^ (2 - 1) ∧
    0 < 2 ^ (1 - 1) := by decide

theorem witness_TransformNeverOverflows :
    1 ≤ 1 ∧ 1 ≤ 12 ∧ (⟨10486000, 0⟩ : Cplx) ∈
      fftStages 1 1 (loadSpectrum 1 (windowed .hamming 1 (frameOf (2 ^ 1) full2Samples))) := by decide +kernel

theorem witness_PeakIsTheEarliestMaximum :
    (frameOf 2 full2Samples).length = 2 ^ 1 ∧ (0, 10486000) = spectralPeak .hamming 1 (frameOf 2 full2Samples) ∧
    0 < 2 ^ 1 / 2 := by decide +kernel

theorem witness_PeakMagnitudeFits : 1 ≤ 12 ∧ 12 ≤ 12 := by decide

theorem witness_BinFrequencyIsExact :
    (1 ≤ 12 ∧ 12 ≤ 12 ∧ 0 < 1048575 ∧ 1048575 < 2 ^ 20 ∧ 2047 < 2 ^ 12 / 2) ∧ 0 < 2 ^ 1 / 2 := by decide

/-- The two ends of the operand, for OperandNormalizes, LutKeyIsTheIdealKey, KeyAndOctaveRange,
PitchClassAndOctaveFromKey, CanonicalFrequencyNearIdeal and DeviationIsExactAndSmall, whose one hypothesis they are. -/
theorem witness_OperandNormalizes : (0 < 1 ∧ 1 < 2 ^ 31) ∧ (0 < 2 ^ 31 - 1 ∧ 2 ^ 31 - 1 < 2 ^ 31) := by decide

/-- The key of the highest operand, with q at 31, and of 440 Hz, with rr at 9 and q below 30. -/
theorem witness_CanonicalRomIsTheFormula :
    11 < 12 ∧ (2 ^ 31 - 1 < 2 ^ 31 ∧ keyOf (2 ^ 31 - 1) = 12 * 31 - 200 + 0) ∧
    (1802240 < 2 ^ 31 ∧ keyOf 1802240 = 12 * 20 - 200 + 9) := by decide +kernel

/-- The index of the threshold table's last entries. -/
theorem witness_ThresholdRomIsTheFormula : 11 < 12 ∧ 10 < 11 := by decide

theorem witness_DoublingRaisesAnOctave :
    0 < 2 ^ 30 - 1 ∧ 2 ^ 30 - 1 < 2 ^ 30 ∧ 30 ≤ (noteStep (2 ^ 30 - 1)).1 := by decide +kernel

theorem witness_ResetAbandonsTheCommand :
    ({ inFlight with sched := [.reset] } : State).sched = .reset :: [] := rfl

/-- For StepKeepsTheInvariant and InvariantStatesNeverStop. -/
theorem witness_StepKeepsTheInvariant :
    inFlight.Inv ∧ (after (step inFlight)).isSome = true ∧ State.reset.Inv ∧ (after (step State.reset)).isSome = true := by
  decide +kernel

/-- For StepKeepsResultsConsistent and StepKeepsResultsInRange: the step is a completion. -/
theorem witness_StepKeepsResultsConsistent :
    inFlight.res.consistent = true ∧ { inFlight with sched := [.engine] }.Inv ∧ inFlight.res.InRange ∧
    (after (step { inFlight with sched := [.engine] })).isSome = true := by decide +kernel

theorem witness_ResultsChangeOnlyAtCompletion :
    (after (step { inFlight with sched := [.engine] })).map (fun t => decide (t.res ≠ inFlight.res)) = some true := by
  decide +kernel

theorem witness_ErrorBitsAreSticky :
    (after (step { State.reset with err := 0x10, hostQ := [.write 0x18 4 0x10] })).map
      (fun t => (t.err.getLsbD 4)) = some false ∧ (0x10 : BitVec 7).getLsbD 4 = true := by decide +kernel

theorem witness_BusyFreezesTheOperands :
    inFlight.busy = true ∧ inFlight.nextAgent = some .host ∧ (after (step inFlight)).isSome = true ∧
    inFlight.turnUsed.nextAgent = some .stream ∧ (after (step inFlight.turnUsed)).isSome = true := by decide +kernel

theorem witness_LatencyChangesNoResult :
    inFlight.engine = some .run ∧ 2 ≤ inFlight.sched.length ∧
    (∀ a ∈ inFlight.sched.take 2, a = .host ∨ a = .stream) ∧
    (after (Sys2Proof.core.run 2 inFlight)).isSome = true := by decide +kernel

theorem witness_AcceptedCommandCompletes :
    inFlight.Inv ∧ inFlight.engine = some .run ∧ Agent.reset ∉ inFlight.sched := by decide +kernel

/-- Two states that agree on the frame and the configuration and differ elsewhere. -/
theorem witness_ResultsDependOnFrameAndConfiguration :
    full2 ≠ { full2 with err := 1, done := true, fb := full2.fb ++ [(9, 9)] } ∧
    ∀ i, i < full2.frameSize →
      FrameBuffer.read full2.fb i = FrameBuffer.read (full2.fb ++ [(9, 9)]) i := by decide +kernel

end Sys2Proof.Tests
end

section
/-! SUPPORT. What a turn can do to the block, said once: the elementary changes a host or stream turn is made of, and the
cases of one step. The invariants and the safety rules are derived from these, without the bus or the dispatch. -/

namespace Sys2Proof.Machine

/-- What acceptance of a command checks once the engine is idle (40 R130). -/
def State.Admits (s : State) : EngineCmd → Prop
  | .run | .gate | .spectrum => s.fill = s.frameSize
  | .bin2freq => s.binOperand < s.frameSize / 2
  | .mapnote => True

/-- One elementary change a host or stream turn makes, with what was checked before it. The W1C write of ERR is not one:
it is the only write that takes an error bit away, and `registerWrite_cases` keeps it apart. -/
inductive Change : State → State → Prop where
  /-- Only the other agents' own fields change (log entries 1 and 2). -/
  | outside (s : State) (resp : BusResponse) (hostQ : List HostOp) (streamQ : List (BitVec 16)) (sched : List Agent) :
      Change s { s with resp := resp, hostQ := hostQ, streamQ := streamQ, sched := sched }
  /-- An error bit is set (60 R263). -/
  | raise (s : State) (b : ErrBit) : Change s (s.raise b)
  /-- The W1C write of STATUS (40 R138). -/
  | clearDone (s : State) : Change s { s with done := false }
  /-- A command is accepted, by its CMD write or by AUTO_RUN (40 R131, R142). -/
  | accept {s : State} {op : EngineCmd} (idle : s.Idle) (admits : s.Admits op) : Change s (s.accept op)
  /-- FLUSH (40 R136). -/
  | flush {s : State} (idle : s.Idle) : Change s s.emptyFrame
  /-- A sample is stored (40 R142). -/
  | store {s : State} (v : Sample) (idle : s.Idle) (notFull : s.fill ≠ s.frameSize) (inRange : s.fill < Config.nMax) :
      Change s (s.store v)
  /-- CTRL takes a legal value (40 R137). -/
  | ctrl {s : State} (l : BitVec 4) (win : Window) (autoRun ieDone ieErr : Bool) (idle : s.Idle)
      (least : Config.log2nMin ≤ l.toNat) (greatest : l.toNat ≤ Config.log2nMax) :
      Change s { s with
        fill := if l = s.log2n then s.fill else 0
        log2n := l, win := win, autoRun := autoRun, ieDone := ieDone, ieErr := ieErr }
  /-- SRATE takes a legal value (40 R137). -/
  | srate {s : State} (rate : BitVec 20) (idle : s.Idle) (nonzero : rate ≠ 0#20) : Change s { s with rate := rate }
  /-- THRESH is written (40 R137). -/
  | thresh {s : State} (thresh : BitVec 16) (idle : s.Idle) : Change s { s with thresh := thresh }
  /-- MAP_BIN is written (40 R137). -/
  | mapBin {s : State} (mapBin : BitVec 12) (idle : s.Idle) : Change s { s with mapBin := mapBin }
  /-- MAP_FREQ is written (40 R137). -/
  | mapFreq {s : State} (mapFreq : BitVec 31) (idle : s.Idle) : Change s { s with mapFreq := mapFreq }

/-- Elementary changes one after another. -/
abbrev Changes : State → State → Prop := Relation.ReflTransGen Change

theorem Change.changes {s t : State} (h : Change s t) : Changes s t := .single h

/-- What every elementary change keeps, any number of them keeps. -/
theorem Changes.keeps {P : State → Prop} (hP : ∀ s t, Change s t → P s → P t) {s t : State} (h : Changes s t)
    (hs : P s) : P t := by
  induction h with
  | refl => exact hs
  | tail _ hc ih => exact hP _ _ hc ih

theorem State.idle_of_not_busy {s : State} (h : s.busy = false) : s.Idle := by
  simpa [State.busy] using h

/-! The commands and the pushes. -/

theorem State.unlessBusy_changes {s : State} {k : State → State} (h : s.Idle → Changes s (k s)) :
    Changes s (s.unlessBusy k) := by
  cases hb : s.busy with
  | false =>
    have idle := State.idle_of_not_busy hb
    rw [State.unlessBusy_of_idle idle]
    exact h idle
  | true =>
    rw [State.unlessBusy_of_busy hb]
    exact (Change.raise s _).changes

theorem State.ifFull_changes {s : State} {k : State → State} (h : s.fill = s.frameSize → Changes s (k s)) :
    Changes s (s.ifFull k) := by
  by_cases hf : s.fill = s.frameSize
  · rw [State.ifFull_of_full hf]
    exact h hf
  · rw [State.ifFull_of_not_full hf]
    exact (Change.raise s _).changes

/-- The CMD write of a command that wants a full frame (40 R130). -/
theorem State.acceptOnFrame_changes {s : State} (op : EngineCmd) (admits : s.fill = s.frameSize → s.Admits op) :
    Changes s (s.unlessBusy fun s => s.ifFull fun s => s.accept op) :=
  State.unlessBusy_changes fun idle => State.ifFull_changes fun full => (Change.accept idle (admits full)).changes

theorem State.autoStart_changes {s : State} (idle : s.Idle) : Changes s s.autoStart := by
  rw [State.autoStart_eq]
  split
  · rename_i h
    exact (Change.accept (op := .run) idle h.1).changes
  · exact .refl

theorem State.push_changes {v : Sample} {s t : State} (idle : s.Idle) (notFull : s.fill ≠ s.frameSize)
    (h : s.push v = .next t) : Changes s t := by
  obtain ⟨inRange, rfl⟩ := State.push_eq_next.mp h
  exact .head (Change.store v idle notFull inRange) (State.autoStart_changes idle)

theorem State.regPush_changes {v : Sample} {s t : State} (h : s.regPush v = .next t) : Changes s t := by
  obtain ⟨-, rfl⟩ | ⟨notBusy, notFull, inRange, rfl⟩ := State.regPush_eq_next h
  · exact (Change.raise s _).changes
  · refine State.push_changes (State.idle_of_not_busy notBusy) ?_ (State.push_eq_next.mpr ⟨inRange, rfl⟩)
    simpa [State.full] using notFull

theorem State.sReady_iff {s : State} : s.sReady = true ↔ s.Idle ∧ s.fill < s.frameSize := by
  simp [State.sReady, State.busy]

/-- Whatever instruction it runs, `exec` only makes elementary changes. -/
theorem exec_changes {i : Instr} {s t : State} (h : exec i s = .next t) : Changes s t := by
  cases i with
  | nop => cases h; exact .refl
  | run => cases h; exact State.acceptOnFrame_changes .run id
  | gate => cases h; exact State.acceptOnFrame_changes .gate id
  | spectrum => cases h; exact State.acceptOnFrame_changes .spectrum id
  | bin2freq =>
    cases h
    refine State.unlessBusy_changes fun idle => ?_
    split
    · exact (Change.raise s _).changes
    · rename_i hb
      exact (Change.accept (op := .bin2freq) idle (Nat.lt_of_not_le hb)).changes
  | mapnote =>
    cases h
    exact State.unlessBusy_changes fun idle => (Change.accept (op := .mapnote) idle trivial).changes
  | flush =>
    cases h
    exact State.unlessBusy_changes fun idle => (Change.flush idle).changes
  | samplePush v g => exact State.regPush_changes h
  | samplePush2 a b =>
    obtain ⟨u, hu, ht⟩ := andThen_eq_next.mp h
    exact (State.regPush_changes hu).trans (State.regPush_changes ht)
  | streamPush v =>
    simp only [exec, execStreamPush] at h
    split at h
    · rename_i ready
      obtain ⟨idle, notFull⟩ := State.sReady_iff.mp ready
      exact State.push_changes idle notFull.ne h
    · cases h
      exact (Change.outside s _ _ _ _).changes

theorem issue_changes {q : Issue} {s t : State} (h : issue q s = .next t) : Changes s t := by
  obtain ⟨i, -, hi⟩ | ⟨-, hi⟩ := issue_eq q s
  · exact exec_changes (hi ▸ h)
  · rw [hi] at h
    cases h
    exact (Change.raise s _).changes

/-! The registers and the bus. -/

theorem State.unlessBusyWrite_changes {s : State} {k : State → State} (h : s.Idle → Changes s (k s)) :
    Changes s (s.unlessBusyWrite k) := by
  cases hb : s.busy with
  | false =>
    have idle := State.idle_of_not_busy hb
    rw [State.unlessBusyWrite_of_idle idle]
    exact h idle
  | true =>
    rw [State.unlessBusyWrite_of_busy hb]
    exact (Change.raise s _).changes

theorem writeCtrl_changes (w : Word) {s : State} (idle : s.Idle) : Changes s (writeCtrl w s) := by
  simp only [writeCtrl]
  split
  · exact (Change.raise s _).changes
  · split
    · exact (Change.raise s _).changes
    · rename_i legal
      simp only [not_or, not_lt] at legal
      exact (Change.ctrl _ _ _ _ _ idle legal.1 legal.2).changes

theorem writeSrate_changes (w : Word) {s : State} (idle : s.Idle) : Changes s (writeSrate w s) := by
  unfold writeSrate
  split
  · exact (Change.raise s _).changes
  · rename_i nonzero
    exact (Change.srate _ idle nonzero).changes

theorem writeStatus_changes (w : Word) (s : State) : Changes s (writeStatus w s) := by
  unfold writeStatus
  split
  · exact (Change.clearDone s).changes
  · exact .refl

/-- A register write is the W1C write of ERR, or makes elementary changes. -/
theorem registerWrite_cases {r : Option Reg} {w : Word} {s t : State} (h : registerWrite r w s = .next t) :
    (r = some .err ∧ t = writeErr w s) ∨ Changes s t := by
  cases r with
  | none => cases h; exact .inr .refl
  | some r =>
    cases r with
    | err => cases h; exact .inl ⟨rfl, rfl⟩
    | cmd => exact .inr (issue_changes (q := .cmd w) h)
    | samplePush => exact .inr (issue_changes (q := .samplePush w) h)
    | samplePush2 => exact .inr (issue_changes (q := .samplePush2 w) h)
    | ctrl => cases h; exact .inr (State.unlessBusyWrite_changes (writeCtrl_changes w))
    | srate => cases h; exact .inr (State.unlessBusyWrite_changes (writeSrate_changes w))
    | thresh => cases h; exact .inr (State.unlessBusyWrite_changes fun idle => (Change.thresh _ idle).changes)
    | mapBin => cases h; exact .inr (State.unlessBusyWrite_changes fun idle => (Change.mapBin _ idle).changes)
    | mapFreq => cases h; exact .inr (State.unlessBusyWrite_changes fun idle => (Change.mapFreq _ idle).changes)
    | status => cases h; exact .inr (writeStatus_changes w s)
    | id | result | energyLo | energyHi | rms | peakBin | peakMagLo | peakMagHi | freq | noteKey | notePc | noteOct
    | noteName | noteFreq | noteDev => cases h; exact .inr .refl

/-- ERR is at the offset 0x18 and at no other aligned one (10 R20). -/
theorem regAt_eq_err {off : BitVec 8} (aligned : off.toNat % 4 = 0) (h : regAt off = some .err) : off = 0x18 := by
  have hq : off.toNat / 4 = 6 := by
    unfold regAt at h
    split at h <;> simp_all
  apply BitVec.eq_of_toNat_eq
  change off.toNat = 24
  omega

/-- A host transaction is the W1C write of ERR, or makes elementary changes. -/
theorem hostAccess_cases {op : HostOp} {s t : State} (h : hostAccess op s = .next t) :
    (∃ w, op = .write 0x18 4 w ∧ t = writeErr w { s with resp := .ok }) ∨ Changes s t := by
  have answered (resp : BusResponse) : Change s { s with resp := resp } := .outside s resp _ _ _
  cases op with
  | read off =>
    simp only [hostAccess] at h
    split at h
    all_goals cases h; exact .inr (answered _).changes
  | write off size w =>
    simp only [hostAccess] at h
    split at h
    · rename_i wellFormed
      obtain ⟨aligned, rfl⟩ := wellFormed
      obtain ⟨hr, rfl⟩ | hc := registerWrite_cases h
      · exact .inl ⟨w, by rw [regAt_eq_err aligned hr], rfl⟩
      · exact .inr (.head (answered _) hc)
    · cases h
      exact .inr (answered _).changes

/-! One step. -/

/-- Everything one step can do: elementary changes, the W1C write of ERR, the completion of a command, or reset. -/
theorem step_cases {s t : State} (h : step s = .next t) :
    Changes s t ∨
    (s.nextAgent = some .host ∧ ∃ w rest, s.hostQ = .write 0x18 4 w :: rest ∧
      t = writeErr w { s.turnUsed with hostQ := rest, resp := .ok }) ∨
    (s.nextAgent = some .engine ∧ ∃ op r, s.engine = some op ∧ execute op s.turnUsed = .ok r ∧
      t = s.turnUsed.publish op r) ∨
    (s.nextAgent = some .reset ∧ t = resetTurn s.turnUsed) := by
  have used : Change s s.turnUsed := .outside s _ _ _ _
  obtain ⟨-, hs⟩ | ⟨a, ha, hs⟩ := step_eq s
  · rw [hs] at h
    cases h
    exact .inl .refl
  rw [hs] at h
  cases a with
  | host =>
    simp only [takeTurn, hostTurn, State.turnUsed_hostQ] at h
    split at h
    · cases h; exact .inl used.changes
    · rename_i op rest hq
      obtain ⟨w, rfl, rfl⟩ | hc := hostAccess_cases h
      · exact .inr (.inl ⟨ha, w, rest, hq, rfl⟩)
      · exact .inl (.head used (.head (.outside _ _ _ _ _) hc))
  | stream =>
    simp only [takeTurn, streamTurn] at h
    split at h
    · cases h; exact .inl used.changes
    · exact .inl (.head used (.head (.outside _ _ _ _ _) (issue_changes h)))
  | engine =>
    obtain ⟨-, rfl⟩ | ⟨op, r, he, hr, rfl⟩ := complete_eq_next h
    · exact .inl used.changes
    · exact .inr (.inr (.inl ⟨ha, op, r, he, hr, rfl⟩))
  | reset => cases h; exact .inr (.inr (.inr ⟨ha, rfl⟩))

end Sys2Proof.Machine
end

section
/-! SUPPORT. The invariant of the block: reset has it, every elementary change, the W1C write of ERR and every completion
keep it, and so does every step; and no step of a state that has it stops. -/

namespace Sys2Proof.Machine

theorem State.engineLegal_of_idle {s : State} (idle : s.Idle) : s.EngineLegal := by
  have h : s.engine = none := idle
  simp [State.EngineLegal, State.RunsOnFrame, State.busy, h]

/-- What acceptance checks is what the invariant says of the command in flight (40 R130, R131). -/
theorem State.engineLegal_accept {s : State} {op : EngineCmd} (admits : s.Admits op) : (s.accept op).EngineLegal := by
  cases op with
  | mapnote => simp [State.EngineLegal, State.RunsOnFrame]
  | _ => simpa [State.EngineLegal, State.RunsOnFrame, State.Admits] using admits

theorem State.emptyFrame_bufferLegal {s : State} (h : FrameBuffer.wf s.fb = true) : s.emptyFrame.BufferLegal :=
  ⟨h, fun i hi => absurd hi (Nat.not_lt_zero i)⟩

/-- Storing a sample at FILL leaves every entry below the new FILL written (40 R142). -/
theorem State.store_bufferLegal {s : State} (v : Sample) (inRange : s.fill < Config.nMax) (h : s.BufferLegal) :
    (s.store v).BufferLegal := by
  obtain ⟨hwf, hwritten⟩ := h
  refine ⟨FrameBuffer.wf_write _ _ _ inRange hwf, fun i hi => ?_⟩
  simp only [State.store_fill, State.store_fb] at hi ⊢
  rw [FrameBuffer.read_write]
  split
  · rfl
  · exact hwritten i (by omega)

/-- Every elementary change keeps the invariant. -/
theorem Change.keeps_inv {s t : State} (h : Change s t) (hs : s.Inv) : t.Inv := by
  obtain ⟨hexp, hrate, hfill, hbuf, heng⟩ := hs
  cases h with
  | outside | raise => exact ⟨hexp, hrate, hfill, hbuf, heng⟩
  | clearDone =>
    obtain ⟨honFrame, hbin, -⟩ := heng
    exact ⟨hexp, hrate, hfill, hbuf, honFrame, hbin, fun _ => rfl⟩
  | accept _ admits => exact ⟨hexp, hrate, hfill, hbuf, State.engineLegal_accept admits⟩
  | flush idle =>
    exact ⟨hexp, hrate, Nat.zero_le _, State.emptyFrame_bufferLegal hbuf.1, State.engineLegal_of_idle idle⟩
  | store v idle notFull inRange =>
    have hlt : s.fill < s.frameSize := Nat.lt_of_le_of_ne hfill notFull
    exact ⟨hexp, hrate, hlt, State.store_bufferLegal v inRange hbuf, State.engineLegal_of_idle idle⟩
  | ctrl l win autoRun ieDone ieErr idle least greatest =>
    refine ⟨⟨least, greatest⟩, hrate, ?_, ?_, State.engineLegal_of_idle idle⟩
    · by_cases hl : l = s.log2n
      · simpa [State.FillLegal, State.frameSize, State.lexp, hl] using hfill
      · simp [State.FillLegal, hl]
    · by_cases hl : l = s.log2n
      · simpa [State.BufferLegal, hl] using hbuf
      · simpa [State.BufferLegal, hl] using hbuf.1
  | srate rate idle nonzero => exact ⟨hexp, nonzero, hfill, hbuf, State.engineLegal_of_idle idle⟩
  | thresh _ idle | mapBin _ idle | mapFreq _ idle =>
    exact ⟨hexp, hrate, hfill, hbuf, State.engineLegal_of_idle idle⟩

theorem Changes.keeps_inv {s t : State} (h : Changes s t) (hs : s.Inv) : t.Inv :=
  h.keeps (fun _ _ hc => hc.keeps_inv) hs

/-- A completion keeps the invariant (40 R133). -/
theorem State.publish_inv {s : State} (op : EngineCmd) (r : Results) (hs : s.Inv) : (s.publish op r).Inv := by
  obtain ⟨hexp, hrate, hfill, ⟨hwf, hwritten⟩, -⟩ := hs
  have hle : (s.publish op r).fill ≤ s.fill := by
    rw [State.publish_fill]
    split <;> omega
  exact ⟨hexp, hrate, hle.trans hfill, ⟨hwf, fun i hi => hwritten i (hi.trans_le hle)⟩,
    State.engineLegal_of_idle (State.publish_engine op r s)⟩

theorem State.reset_inv : State.reset.Inv := by decide

/-- Settles O50: each case of `step_cases` keeps the invariant. -/
theorem stepKeepsTheInvariant : Obligations.StepKeepsTheInvariant := by
  intro s t hs h
  obtain hc | ⟨-, w, rest, -, rfl⟩ | ⟨-, op, r, -, -, rfl⟩ | ⟨-, rfl⟩ := step_cases h
  · exact hc.keeps_inv hs
  · exact hs
  · exact State.publish_inv op r hs
  · exact State.reset_inv

/-! No step of a state with the invariant stops. -/

theorem safe_next (s : State) : Safe (.next s) := ⟨s, rfl⟩

theorem State.Inv.fill_le {s : State} (hs : s.Inv) : s.fill ≤ s.frameSize := by
  obtain ⟨-, -, hfill, -⟩ := hs
  exact hfill

/-- N is at most the capacity of the frame buffer (00 R7, 10 R23). -/
theorem State.Inv.frameSize_le {s : State} (hs : s.Inv) : s.frameSize ≤ Config.nMax := by
  obtain ⟨⟨-, hmax⟩, -⟩ := hs
  exact Nat.pow_le_pow_right (by decide) hmax

/-- A push below N is in the range of the frame buffer (20 R83). -/
theorem State.push_safe {s : State} (v : Sample) (hs : s.Inv) (h : s.fill < s.frameSize) : Safe (s.push v) :=
  ⟨_, State.push_eq_next.mpr ⟨h.trans_le hs.frameSize_le, rfl⟩⟩

theorem State.regPush_safe {s : State} (v : Sample) (hs : s.Inv) : Safe (s.regPush v) := by
  unfold State.regPush
  split
  · exact safe_next _
  · rename_i accepted
    have notFull : s.fill ≠ s.frameSize := by
      intro hf
      simp [State.full, hf] at accepted
    exact State.push_safe v hs (Nat.lt_of_le_of_ne hs.fill_le notFull)

theorem exec_safe (i : Instr) {s : State} (hs : s.Inv) : Safe (exec i s) := by
  cases i with
  | nop | run | gate | spectrum | bin2freq | mapnote | flush => exact safe_next _
  | samplePush v g => exact State.regPush_safe v hs
  | samplePush2 a b =>
    obtain ⟨u, hu⟩ := State.regPush_safe a hs
    obtain ⟨t, ht⟩ := State.regPush_safe b ((State.regPush_changes hu).keeps_inv hs)
    exact ⟨t, andThen_eq_next.mpr ⟨u, hu, ht⟩⟩
  | streamPush v =>
    simp only [exec, execStreamPush]
    split
    · rename_i ready
      exact State.push_safe v hs (State.sReady_iff.mp ready).2
    · exact safe_next _

theorem issue_safe (q : Issue) {s : State} (hs : s.Inv) : Safe (issue q s) := by
  obtain ⟨i, -, hi⟩ | ⟨-, hi⟩ := issue_eq q s
  · exact hi ▸ exec_safe i hs
  · exact hi ▸ safe_next _

theorem registerWrite_safe (r : Option Reg) (w : Word) {s : State} (hs : s.Inv) : Safe (registerWrite r w s) := by
  cases r with
  | none => exact safe_next _
  | some r =>
    cases r with
    | cmd => exact issue_safe (.cmd w) hs
    | samplePush => exact issue_safe (.samplePush w) hs
    | samplePush2 => exact issue_safe (.samplePush2 w) hs
    | _ => exact safe_next _

theorem hostAccess_safe (op : HostOp) {s : State} (hs : s.Inv) : Safe (hostAccess op s) := by
  obtain ⟨-, h⟩ | ⟨off, -, h⟩ | ⟨off, w, -, h⟩ := hostAccess_eq op s
  · exact h ▸ safe_next _
  · exact h ▸ safe_next _
  · exact h ▸ registerWrite_safe (regAt off) w hs

/-- What acceptance of RUN, GATE and SPECTRUM checked still holds (40 R133). -/
theorem State.Inv.full_of_runsOnFrame {s : State} (hs : s.Inv) (h : s.RunsOnFrame) : s.fill = s.frameSize := by
  obtain ⟨-, -, -, -, honFrame, -⟩ := hs
  exact honFrame h

/-- With FILL = N every entry of the frame has been written, so the frame reads (10 R52). -/
theorem State.frame_ok {s : State} (hs : s.Inv) (full : s.fill = s.frameSize) : ∃ xs, s.frame = .ok xs := by
  obtain ⟨-, -, -, ⟨-, hwritten⟩, -⟩ := hs
  refine FrameBuffer.readFrom_ok_of_written s.fb s.frameSize 0 fun j hj => ?_
  rw [Nat.zero_add]
  exact hwritten j (full ▸ hj)

/-- The command in flight computes its results: one that reads the frame was accepted on a full one (40 R130, R133). -/
theorem execute_ok {s : State} {op : EngineCmd} (hs : s.Inv) (he : s.engine = some op) :
    ∃ r, execute op s = .ok r := by
  have frameReads (h : s.RunsOnFrame) : ∃ xs, s.frame = .ok xs := State.frame_ok hs (hs.full_of_runsOnFrame h)
  cases op with
  | run =>
    obtain ⟨xs, hxs⟩ := frameReads (.inl he)
    simp only [execute, runResults, hxs]
    split <;> exact ⟨_, rfl⟩
  | gate =>
    obtain ⟨xs, hxs⟩ := frameReads (.inr (.inl he))
    simp [execute, gateResults, hxs]
  | spectrum =>
    obtain ⟨xs, hxs⟩ := frameReads (.inr (.inr he))
    simp [execute, spectrumResults, hxs]
  | bin2freq | mapnote => exact ⟨_, rfl⟩

theorem complete_safe {s : State} (hs : s.Inv) : Safe (complete s) := by
  cases he : s.engine with
  | none => exact ⟨s, by simp [complete, he]⟩
  | some op =>
    obtain ⟨r, hr⟩ := execute_ok hs he
    exact ⟨_, complete_of_ok he hr⟩

theorem takeTurn_safe (a : Agent) {s : State} (hs : s.Inv) : Safe (takeTurn a s) := by
  cases a with
  | host =>
    simp only [takeTurn, hostTurn]
    split
    · exact safe_next _
    · exact hostAccess_safe _ hs
  | stream =>
    simp only [takeTurn, streamTurn]
    split
    · exact safe_next _
    · exact issue_safe _ hs
  | engine => exact complete_safe hs
  | reset => exact safe_next _

/-- Settles O51: every agent's turn is answered in a state with the invariant. -/
theorem invariantStatesNeverStop : Obligations.InvariantStatesNeverStop := by
  intro s hs
  obtain ⟨-, h⟩ | ⟨a, -, h⟩ := step_eq s
  · exact h ▸ safe_next _
  · exact h ▸ takeTurn_safe a hs

end Sys2Proof.Machine
end

section
/-! SUPPORT. What no turn of the host or the stream source changes: the result registers, and an error bit that is set. -/

namespace Sys2Proof.Machine

theorem Change.res_eq {s t : State} (h : Change s t) : t.res = s.res := by
  cases h <;> rfl

theorem Changes.res_eq {s t : State} (h : Changes s t) : t.res = s.res :=
  h.keeps (P := fun u => u.res = s.res) (fun _ _ hc hu => hc.res_eq.trans hu) rfl

/-- No elementary change takes an error bit away (60 R263). -/
theorem Change.keeps_err {s t : State} (b : Nat) (h : Change s t) (hs : s.err.getLsbD b = true) :
    t.err.getLsbD b = true := by
  cases h with
  | raise e => simp [hs]
  | _ => exact hs

theorem Changes.keeps_err {s t : State} (b : Nat) (h : Changes s t) (hs : s.err.getLsbD b = true) :
    t.err.getLsbD b = true :=
  h.keeps (P := fun u => u.err.getLsbD b = true) (fun _ _ => Change.keeps_err b) hs

/-- The W1C write of ERR takes away only bits written 1 (40 R138). -/
theorem writeErr_clears {w : Word} {s : State} {b : Nat} (hs : s.err.getLsbD b = true)
    (h : (writeErr w s).err.getLsbD b = false) : w.getLsbD b = true := by
  have hb : b < 7 := BitVec.lt_of_getLsbD hs
  simpa [writeErr, hs, hb] using h

/-- Settles O54: of the cases of `step_cases`, only a completion and reset touch the result registers. -/
theorem resultsChangeOnlyAtCompletion : Obligations.ResultsChangeOnlyAtCompletion := by
  intro s t h changed
  obtain hc | ⟨-, w, rest, -, rfl⟩ | ⟨turn, op, r, he, -, -⟩ | ⟨turn, -⟩ := step_cases h
  · exact absurd hc.res_eq changed
  · exact absurd rfl changed
  · exact .inl ⟨turn, by simp [State.busy, he]⟩
  · exact .inr turn

/-- Settles O55: elementary changes and completions keep every error bit, and the W1C write takes away only bits written
1. -/
theorem errorBitsAreSticky : Obligations.ErrorBitsAreSticky := by
  intro s t b h set cleared
  obtain hc | ⟨turn, w, rest, hq, rfl⟩ | ⟨-, op, r, -, -, rfl⟩ | ⟨turn, -⟩ := step_cases h
  · simp [hc.keeps_err b set] at cleared
  · exact .inr ⟨turn, w, rest, hq, writeErr_clears set cleared⟩
  · simp [set] at cleared
  · exact .inl turn

end Sys2Proof.Machine
end

section
/-! SUPPORT. The fields of the STATUS and RESULT words, each read out of its concatenation once (10 R30, R40), and the
host accesses the statements about them make. -/

namespace Sys2Proof.Machine

/-! The STATUS word. -/

theorem statusWord_busy (s : State) : (statusWord s).getLsbD 0 = s.busy := by
  unfold statusWord
  rw [BitVec.getLsbD_append]
  simp

theorem statusWord_done (s : State) : (statusWord s).getLsbD 1 = s.done := by
  unfold statusWord
  iterate 2 rw [BitVec.getLsbD_append]
  simp

theorem statusWord_full (s : State) : (statusWord s).getLsbD 2 = s.full := by
  unfold statusWord
  iterate 3 rw [BitVec.getLsbD_append]
  simp

theorem statusWord_irq (s : State) : (statusWord s).getLsbD 3 = s.irq := by
  unfold statusWord
  iterate 4 rw [BitVec.getLsbD_append]
  simp

theorem statusWord_curOp (s : State) : (statusWord s).extractLsb' 4 4 = opcodeField s.engine := by
  unfold statusWord
  iterate 4 rw [BitVec.extractLsb'_append_eq_of_le (by decide)]
  exact BitVec.extractLsb'_append_eq_right

theorem statusWord_reserved_low (s : State) : (statusWord s).extractLsb' 8 8 = 0#8 := by
  unfold statusWord
  iterate 5 rw [BitVec.extractLsb'_append_eq_of_le (by decide)]
  exact BitVec.extractLsb'_append_eq_right

theorem statusWord_fill (s : State) : (statusWord s).extractLsb' 16 13 = BitVec.ofNat 13 s.fill := by
  unfold statusWord
  iterate 6 rw [BitVec.extractLsb'_append_eq_of_le (by decide)]
  exact BitVec.extractLsb'_append_eq_right

theorem statusWord_reserved_high (s : State) : (statusWord s).extractLsb' 29 3 = 0#3 := by
  unfold statusWord
  iterate 7 rw [BitVec.extractLsb'_append_eq_of_le (by decide)]
  exact BitVec.extractLsb'_eq_self

/-- FILL fits its field (10 R33). -/
theorem statusWord_fill_toNat {s : State} (hs : s.Inv) : ((statusWord s).extractLsb' 16 13).toNat = s.fill := by
  have hle : s.fill ≤ 4096 := hs.fill_le.trans hs.frameSize_le
  rw [statusWord_fill, BitVec.toNat_ofNat]
  exact Nat.mod_eq_of_lt (by omega)

/-! The RESULT word. -/

theorem resultWord_code (r : Results) : (resultWord r).extractLsb' 0 4 = r.code.bits := by
  unfold resultWord
  exact BitVec.extractLsb'_append_eq_right

theorem resultWord_reserved_low (r : Results) : (resultWord r).extractLsb' 4 4 = 0#4 := by
  unfold resultWord
  rw [BitVec.extractLsb'_append_eq_of_le (by decide)]
  exact BitVec.extractLsb'_append_eq_right

theorem resultWord_srcOp (r : Results) : (resultWord r).extractLsb' 8 4 = opcodeField r.srcOp := by
  unfold resultWord
  iterate 2 rw [BitVec.extractLsb'_append_eq_of_le (by decide)]
  exact BitVec.extractLsb'_append_eq_right

theorem resultWord_reserved_high (r : Results) : (resultWord r).extractLsb' 12 20 = 0#20 := by
  unfold resultWord
  iterate 3 rw [BitVec.extractLsb'_append_eq_of_le (by decide)]
  exact BitVec.extractLsb'_eq_self

/-! The numbers of the enumerations. -/

/-- The spec's table of opcodes (30 R102) is the model's. -/
theorem opcodeField_of_mem {op : EngineCmd} {n : BitVec 4}
    (h : (op, n) ∈ [(EngineCmd.run, 1#4), (.gate, 2#4), (.spectrum, 3#4), (.bin2freq, 4#4), (.mapnote, 5#4)]) :
    opcodeField (some op) = n := by
  simp only [List.mem_cons, Prod.mk.injEq, List.not_mem_nil, or_false] at h
  rcases h with ⟨rfl, rfl⟩ | ⟨rfl, rfl⟩ | ⟨rfl, rfl⟩ | ⟨rfl, rfl⟩ | ⟨rfl, rfl⟩ <;> rfl

/-- The spec's table of result codes (60 R261) is the model's. -/
theorem ResultCode.bits_of_mem {c : ResultCode} {n : BitVec 4}
    (h : (c, n) ∈ [(ResultCode.none, 0#4), (.note, 1#4), (.belowThreshold, 2#4), (.dcPeak, 3#4), (.gatePass, 4#4),
      (.spectrumDone, 5#4), (.freqDone, 6#4), (.invalidFreq, 7#4)]) : c.bits = n := by
  simp only [List.mem_cons, Prod.mk.injEq, List.not_mem_nil, or_false] at h
  rcases h with ⟨rfl, rfl⟩ | ⟨rfl, rfl⟩ | ⟨rfl, rfl⟩ | ⟨rfl, rfl⟩ | ⟨rfl, rfl⟩ | ⟨rfl, rfl⟩ | ⟨rfl, rfl⟩ | ⟨rfl, rfl⟩ <;>
    rfl

/-! Host accesses. -/

/-- An aligned write of four bytes is answered and is the register write it names (20 R72). -/
theorem hostAccess_write {off : BitVec 8} (aligned : off.toNat % 4 = 0) (w : Word) (s : State) :
    hostAccess (.write off 4 w) s = registerWrite (regAt off) w { s with resp := .ok } := by
  simp [hostAccess, aligned]

/-- An aligned read is answered with the register's value and changes nothing else (20 R73). -/
theorem hostAccess_read {off : BitVec 8} (aligned : off.toNat % 4 = 0) (s : State) :
    hostAccess (.read off) s = .next { s with resp := .data (registerRead (regAt off) s) } := by
  simp [hostAccess, aligned]

/-- The W1C write of STATUS can clear DONE and nothing else (40 R138). -/
theorem writeStatus_eq (w : Word) (s : State) : writeStatus w s = { s with done := s.done && !w.getLsbD 1 } := by
  unfold writeStatus
  cases w.getLsbD 1 <;> simp

theorem hostAccess_write_status (w : Word) (s : State) :
    hostAccess (.write 0x14 4 w) s = .next { s with resp := .ok, done := s.done && !w.getLsbD 1 } := by
  rw [hostAccess_write (by decide)]
  exact congrArg Host.Outcome.next (writeStatus_eq w { s with resp := .ok })

theorem hostAccess_write_err (w : Word) (s : State) :
    hostAccess (.write 0x18 4 w) s = .next { s with resp := .ok, err := s.err &&& ~~~(w.extractLsb' 0 7) } :=
  hostAccess_write (by decide) w s

/-- The CMD write of MAPNOTE to an idle engine is accepted with no other check (40 R130). -/
theorem hostAccess_mapnote_of_idle {s : State} (idle : s.Idle) :
    hostAccess (.write 0x10 4 0x00000005) s = .next ({ s with resp := .ok }.accept .mapnote) := by
  rw [hostAccess_write (by decide)]
  exact congrArg Host.Outcome.next (State.unlessBusy_of_idle (s := { s with resp := .ok }) idle _)

/-! The statements. -/

/-- Settles O10: each field of the STATUS word, and the W1C write of DONE. -/
theorem statusWordFields : Obligations.StatusWordFields := by
  refine ⟨by decide, fun s w => hostAccess_write_status w s, fun s hs => ?_⟩
  refine ⟨statusWord_busy s, statusWord_done s, statusWord_full s, statusWord_irq s, rfl, rfl, fun idle => ?_,
    fun op n he hmem => ?_, statusWord_reserved_low s, statusWord_fill_toNat hs, statusWord_reserved_high s⟩
  · rw [registerRead, statusWord_curOp, idle]
    rfl
  · rw [registerRead, statusWord_curOp, he]
    exact opcodeField_of_mem hmem

/-- Settles O60: each field of the RESULT word, read at 0x40. -/
theorem resultWordFields : Obligations.ResultWordFields := by
  refine ⟨by decide, fun s => ⟨resultWord s.res, hostAccess_read (by decide) s, fun c n hc hmem => ?_, fun hnone => ?_,
    fun op n hop hmem => ?_, resultWord_reserved_low s.res, resultWord_reserved_high s.res⟩⟩
  · rw [resultWord_code, hc]
    exact ResultCode.bits_of_mem hmem
  · rw [resultWord_srcOp, hnone]
    rfl
  · rw [resultWord_srcOp, hop]
    exact opcodeField_of_mem hmem

/-- Settles O11: the level of the interrupt output, and its value after each write that clears a source. -/
theorem irqIsALevelAndItsSourcesClear : Obligations.IrqIsALevelAndItsSourcesClear := by
  intro s
  refine ⟨statusWord_irq s, by simp [State.irq], ⟨_, hostAccess_write_status _ s, ?_⟩, ⟨_, hostAccess_write_err _ s, ?_⟩,
    fun idle => ⟨_, hostAccess_mapnote_of_idle idle, ?_⟩, fun hdone herr => by simp [State.irq, hdone, herr]⟩
  · simp [State.irq]
  · simp [State.irq]
  · rfl

/-- Settles O47: the reset state is a literal, so each value is read off it. -/
theorem resetValues : Obligations.ResetValues := by
  unfold Obligations.ResetValues
  decide

theorem Results.zero_inRange : Results.zero.InRange := by decide

/-- Settles O49: the base case of O50 and O53. -/
theorem resetKeepsTheInvariant : Obligations.ResetKeepsTheInvariant :=
  ⟨State.reset_inv, by decide, Results.zero_inRange⟩

end Sys2Proof.Machine
end

section
/-! SUPPORT. The bounds of what the engine computes that the ranges of the result registers rest on: the energy and RMS of
a frame (41 R160, R161), the bin of a peak (42 R202) and its frequency (42 R204). -/

namespace Sys2Proof.Machine

/-! The frame. -/

/-- What is read from the frame buffer are values of samples (10 R53). -/
theorem FrameBuffer.exists_sample_of_mem_readFrom {fb : FrameBuffer} {n i : Nat} {xs : List Int}
    (h : FrameBuffer.readFrom fb n i = .ok xs) {x : Int} (hx : x ∈ xs) : ∃ v : Sample, x = sampleValue v := by
  induction n generalizing i xs with
  | zero => cases h; cases hx
  | succ n ih =>
    simp only [FrameBuffer.readFrom] at h
    split at h
    · cases h
    · rename_i v _
      split at h
      · rename_i tail htail
        cases h
        obtain rfl | hx := List.mem_cons.mp hx
        · exact ⟨v, rfl⟩
        · exact ih htail hx
      · cases h

/-- The square of a sample is at most 2^30 (41 R160). -/
theorem sampleValue_sq_le (v : Sample) : (sampleValue v * sampleValue v).toNat ≤ 2 ^ 30 := by
  have hlow : -2 ^ 15 ≤ sampleValue v := BitVec.le_toInt v
  have hhigh : sampleValue v < 2 ^ 15 := BitVec.toInt_lt
  have hsq : sampleValue v * sampleValue v ≤ 2 ^ 30 := by nlinarith
  omega

theorem energy_le {xs : List Int} (h : ∀ x ∈ xs, ∃ v : Sample, x = sampleValue v) :
    energy xs ≤ xs.length * 2 ^ 30 := by
  have := List.sum_le_card_nsmul (xs.map fun x => (x * x).toNat) (2 ^ 30) fun y hy => by
    obtain ⟨x, hx, rfl⟩ := List.mem_map.mp hy
    obtain ⟨v, rfl⟩ := h x hx
    exact sampleValue_sq_le v
  simpa [energy] using this

/-- The energy of the frame is at most N * 2^30 (41 R160). -/
theorem State.frame_energy_le {s : State} {xs : List Int} (h : s.frame = .ok xs) :
    energy xs ≤ s.frameSize * 2 ^ 30 := by
  have hlength : xs.length = s.frameSize := FrameBuffer.readFrom_length _ _ _ _ h
  exact hlength ▸ energy_le fun x hx => FrameBuffer.exists_sample_of_mem_readFrom h hx

/-- The RMS of an energy of at most N * 2^30 is at most 32768 (41 R161). -/
theorem rmsOf_le {e n : Nat} (h : e ≤ n * 2 ^ 30) : rmsOf e n ≤ 32768 := by
  have hmean : e / n ≤ 2 ^ 30 := Nat.div_le_of_le_mul h
  have hsqrt : isqrt (e / n) * isqrt (e / n) ≤ e / n := (isqrt_spec _).1
  change isqrt (e / n) ≤ 32768
  nlinarith

/-! The peak. -/

theorem peakSearch_fst_lt (ps : List Nat) (k best bestP : Nat) (h : best < k) :
    (peakSearch ps k best bestP).1 < k + ps.length := by
  induction ps generalizing k best bestP with
  | nil => exact h
  | cons p ps ih =>
    rw [peakSearch, List.length_cons, ← Nat.add_assoc, Nat.add_right_comm]
    split
    · exact ih (k + 1) k p (Nat.lt_succ_self k)
    · exact ih (k + 1) best bestP (Nat.lt_succ_of_lt h)

theorem peakOfPowers_fst_lt {powers : List Nat} {n : Nat} (hn : 0 < n) (h : powers.length ≤ n) :
    (peakOfPowers powers).1 < n := by
  cases powers with
  | nil => exact hn
  | cons p ps =>
    have := peakSearch_fst_lt ps 1 0 p Nat.zero_lt_one
    simp only [List.length_cons] at h
    simp only [peakOfPowers]
    omega

/-- The peak's bin is in the lower half of the spectrum (42 R202). -/
theorem spectralPeak_fst_lt (w : Window) {l : Nat} (hl : 1 ≤ l) (frame : List Int) :
    (spectralPeak w l frame).1 < 2 ^ (l - 1) := by
  have half : 2 ^ l / 2 = 2 ^ (l - 1) := by
    rw [Nat.pow_div hl (by decide)]
  refine half ▸ peakOfPowers_fst_lt (half ▸ Nat.two_pow_pos _) ?_
  simp

/-- The frequency of a bin of the lower half is a legal operand of the note mapper, bin 0 aside (42 R204). -/
theorem binFreq_lt {k rate l : Nat} (hl : 1 ≤ l) (hl' : l ≤ 12) (hrate : rate < 2 ^ 20) (hk : k < 2 ^ (l - 1)) :
    binFreq k rate l < 2 ^ 31 :=
  calc k * rate * 2 ^ (12 - l)
    _ < 2 ^ (l - 1) * 2 ^ 20 * 2 ^ (12 - l) :=
      Nat.mul_lt_mul_of_pos_right (Nat.mul_lt_mul'' hk hrate) (Nat.two_pow_pos _)
    _ = 2 ^ 31 := by rw [← pow_add, ← pow_add]; congr 1; omega

theorem binFreq_pos {k rate : Nat} (l : Nat) (hk : k ≠ 0) (hrate : rate ≠ 0) : 0 < binFreq k rate l :=
  Nat.mul_pos (Nat.mul_pos (Nat.pos_of_ne_zero hk) (Nat.pos_of_ne_zero hrate)) (Nat.two_pow_pos _)

end Sys2Proof.Machine
end

section
/-! SUPPORT. The ranges of the note mapper's results over its operands, 0 < v < 2^31 (43 R236 to R242). -/

namespace Sys2Proof.Machine

/-- p is at most 30 (43 R234). -/
theorem notePos_le {v : Nat} (hpos : 0 < v) (hlt : v < 2 ^ 31) : notePos v ≤ 30 :=
  Nat.le_of_lt_succ ((Nat.log2_lt hpos.ne').mpr hlt)

theorem two_pow_notePos_le {v : Nat} (hpos : 0 < v) : 2 ^ notePos v ≤ v := Nat.log2_self_le hpos.ne'

theorem noteCount_le (v : Nat) : noteCount v ≤ 12 := List.countP_le_length

/-- A count below 12 is a step of the operand's own octave, and 12 is step 0 of the next (43 R236). -/
theorem noteStep_cases (v : Nat) :
    (noteCount v < 12 ∧ noteStep v = (notePos v, noteCount v)) ∨ noteStep v = (notePos v + 1, 0) := by
  by_cases h : noteCount v = 12
  · exact .inr (by simp [noteStep, h])
  · exact .inl ⟨Nat.lt_of_le_of_ne (noteCount_le v) h, by simp [noteStep, h]⟩

theorem keyOf_bounds {v : Nat} (hpos : 0 < v) (hlt : v < 2 ^ 31) : -200 ≤ keyOf v ∧ keyOf v ≤ 172 := by
  have hp := notePos_le hpos hlt
  obtain ⟨hc, h⟩ | h := noteStep_cases v
  all_goals
    simp only [keyOf, h]
    omega

theorem pitchClassOf_eq (v : Nat) : (pitchClassOf v : Int) = keyOf v % 12 :=
  Int.toNat_of_nonneg (Int.emod_nonneg _ (by decide))

theorem pitchClassOf_lt (v : Nat) : pitchClassOf v < 12 := by
  have := pitchClassOf_eq v
  omega

/-- Every entry of the name ROM is a letter with or without a sharp (43 R240, 10 R49). -/
theorem noteNames_inRange : ∀ pc < 12, noteNames.getD pc 0 ≠ 0 ∧ NameInRange (noteNames.getD pc 0) := by decide

theorem nameOf_inRange (v : Nat) : nameOf v ≠ 0 ∧ NameInRange (nameOf v) :=
  noteNames_inRange _ (pitchClassOf_lt v)

/-! The canonical frequency and the deviation. -/

theorem roundShift_nonneg {x : Int} (h : 0 ≤ x) (n : Nat) : 0 ≤ roundShift x n := by
  cases n with
  | zero => exact h
  | succ n => exact Int.ediv_nonneg (by positivity) (by positivity)

theorem roundShift_le_self {x : Int} (h : 0 ≤ x) (n : Nat) : roundShift x n ≤ x := by
  cases n with
  | zero => exact le_rfl
  | succ n =>
    have hp : (0 : Int) < 2 ^ n := by positivity
    refine Int.le_of_lt_add_one (Int.ediv_lt_of_lt_mul (by positivity) ?_)
    rw [pow_succ]
    nlinarith

theorem canonicalFreqs_le : ∀ r < 12, canonicalFreqs.getD r 0 ≤ 2071496706 := by decide

/-- NF is at most the greatest entry of the ROM, unless the key is the one of q = 31, which only operands of at least 2^30
have (43 R241). -/
theorem canonicalOf_bounds {v : Nat} (hpos : 0 < v) (hlt : v < 2 ^ 31) :
    0 ≤ canonicalOf v ∧ (canonicalOf v ≤ 2071496706 ∨ (2 ^ 30 ≤ v ∧ canonicalOf v = 2194674310)) := by
  have hp := notePos_le hpos hlt
  have stepBelow {q r : Nat} (hstep : noteStep v = (q, r)) (hq : q ≤ 30) (hr : r < 12) :
      0 ≤ canonicalOf v ∧ canonicalOf v ≤ 2071496706 := by
    have hcf : ((canonicalFreqs.getD r 0 : Nat) : Int) ≤ 2071496706 := by exact_mod_cast canonicalFreqs_le r hr
    have hcf0 : (0 : Int) ≤ (canonicalFreqs.getD r 0 : Nat) := Int.natCast_nonneg _
    simp only [canonicalOf, hstep]
    split
    · exact ⟨roundShift_nonneg hcf0 _, (roundShift_le_self hcf0 _).trans hcf⟩
    · rw [show q - 30 = 0 by omega]
      omega
  obtain ⟨hr, hstep⟩ | hstep := noteStep_cases v
  · obtain ⟨hlow, hhigh⟩ := stepBelow hstep hp hr
    exact ⟨hlow, .inl hhigh⟩
  · by_cases hq : notePos v = 30
    · have hv : 2 ^ 30 ≤ v := hq ▸ two_pow_notePos_le hpos
      have hnf : canonicalOf v = 2194674310 := by
        simp [canonicalOf, hstep, hq, canonicalFreqs]
      exact ⟨by omega, .inr ⟨hv, hnf⟩⟩
    · obtain ⟨hlow, hhigh⟩ := stepBelow hstep (by omega) (by decide)
      exact ⟨hlow, .inl hhigh⟩

/-- DEV fits NOTE_DEV (43 R242). -/
theorem deviationOf_bounds {v : Nat} (hpos : 0 < v) (hlt : v < 2 ^ 31) :
    -2 ^ 31 ≤ deviationOf v ∧ deviationOf v < 2 ^ 31 := by
  have := canonicalOf_bounds hpos hlt
  simp only [deviationOf]
  omega

end Sys2Proof.Machine
end

section
/-! SUPPORT. Every set of results the engine publishes is in the ranges of 10 R41 to R51. -/

namespace Sys2Proof.Machine

theorem toNat_ofNat_le {n x b : Nat} (h : x ≤ b) : (BitVec.ofNat n x).toNat ≤ b := by
  rw [BitVec.toNat_ofNat]
  exact (Nat.mod_le _ _).trans h

theorem toInt_ofInt_of_bounds {x : Int} (hlow : -2 ^ 31 ≤ x) (hhigh : x < 2 ^ 31) : (BitVec.ofInt 32 x).toInt = x :=
  BitVec.toInt_ofInt_eq_self (by decide) hlow hhigh

/-- Results without a note hold no key, class, octave, name or deviation. -/
theorem Results.inRange_of_no_note {code : ResultCode} {energy : BitVec 43} {rms : BitVec 16} {peakBin : BitVec 12}
    {peakMag : BitVec 44} {freq : BitVec 31} (hcode : code ≠ .note) (henergy : energy.toNat ≤ 2 ^ 42)
    (hrms : rms.toNat ≤ 32768) (hbin : peakBin.toNat ≤ 2047) :
    Results.InRange { Results.zero with
      code := code, energy := energy, rms := rms, peakBin := peakBin, peakMag := peakMag, freq := freq } := by
  obtain ⟨-, -, -, hkey, hkey', hpc, hoct, hoct', hpcKey, hoctKey, hnf, hname, -⟩ := Results.zero_inRange
  exact ⟨henergy, hrms, hbin, hkey, hkey', hpc, hoct, hoct', hpcKey, hoctKey, hnf, hname, fun h => absurd h hcode,
    fun _ => rfl⟩

/-- The note of an operand of 43 R244 is in range, over results already gathered that are. -/
theorem Results.withNote_inRange {r : Results} {v : Nat} (hr : r.InRange) (hpos : 0 < v) (hlt : v < 2 ^ 31) :
    (r.withNote v).InRange := by
  obtain ⟨henergy, hrms, hbin, -⟩ := hr
  obtain ⟨hkey, hkey'⟩ := keyOf_bounds hpos hlt
  obtain ⟨hnf, hnf'⟩ := canonicalOf_bounds hpos hlt
  obtain ⟨hdev, hdev'⟩ := deviationOf_bounds hpos hlt
  obtain ⟨hname, hname'⟩ := nameOf_inRange v
  have key : (r.withNote v).noteKey.toInt = keyOf v := toInt_ofInt_of_bounds (by omega) (by omega)
  have octKey : octaveOf v = keyOf v / 12 := rfl
  have oct : (r.withNote v).noteOct.toInt = octaveOf v := toInt_ofInt_of_bounds (by omega) (by omega)
  have pc : (r.withNote v).notePc.toNat = pitchClassOf v :=
    Nat.mod_eq_of_lt ((pitchClassOf_lt v).trans (by decide))
  have nf : ((r.withNote v).noteFreq.toNat : Int) = canonicalOf v := by
    simp only [Results.withNote, BitVec.toNat_ofInt]
    omega
  have dev : (r.withNote v).noteDev.toInt = deviationOf v := toInt_ofInt_of_bounds hdev hdev'
  have freq : (r.withNote v).freq.toNat = v := Nat.mod_eq_of_lt hlt
  have devNf : deviationOf v = v - canonicalOf v := rfl
  have pcKey := pitchClassOf_eq v
  refine ⟨henergy, hrms, hbin, ?_, ?_, ?_, ?_, ?_, ?_, ?_, ?_, hname', fun _ => ⟨hname, ?_⟩, fun h => absurd rfl h⟩
  all_goals omega

/-! Each command. -/

theorem State.Inv.exponentLegal {s : State} (hs : s.Inv) : s.ExponentLegal := by
  obtain ⟨hexp, -⟩ := hs
  exact hexp

theorem State.Inv.energy_le {s : State} {xs : List Int} (hs : s.Inv) (h : s.frame = .ok xs) : energy xs ≤ 2 ^ 42 :=
  calc energy xs
    _ ≤ s.frameSize * 2 ^ 30 := s.frame_energy_le h
    _ ≤ 4096 * 2 ^ 30 := Nat.mul_le_mul_right _ hs.frameSize_le
    _ = 2 ^ 42 := by norm_num

/-- The peak of the frame of a state with the invariant is at a bin of at most 2047 (10 R43). -/
theorem State.Inv.peakBin_le {s : State} (hs : s.Inv) (xs : List Int) :
    (spectralPeak s.win s.lexp xs).1 ≤ 2047 := by
  obtain ⟨hmin, hmax⟩ := hs.exponentLegal
  have hlt : (spectralPeak s.win s.lexp xs).1 < 2 ^ (s.lexp - 1) := spectralPeak_fst_lt _ hmin xs
  have hle : 2 ^ (s.lexp - 1) ≤ 2 ^ 11 := Nat.pow_le_pow_right (by decide) (Nat.sub_le_sub_right hmax 1)
  omega

theorem gateResults_inRange {s : State} {r : Results} (hs : s.Inv) (h : gateResults s = .ok r) : r.InRange := by
  unfold gateResults at h
  split at h
  · cases h
  · rename_i xs hxs
    cases h
    refine Results.inRange_of_no_note ?_ (toNat_ofNat_le (hs.energy_le hxs))
      (toNat_ofNat_le (rmsOf_le (s.frame_energy_le hxs))) (Nat.zero_le _)
    split <;> decide

theorem spectrumResults_inRange {s : State} {r : Results} (hs : s.Inv) (h : spectrumResults s = .ok r) :
    r.InRange := by
  unfold spectrumResults at h
  split at h
  · cases h
  · rename_i xs hxs
    cases h
    exact Results.inRange_of_no_note (by decide) (Nat.zero_le _) (Nat.zero_le _) (toNat_ofNat_le (hs.peakBin_le xs))

/-- An open gate publishes a note exactly when the peak is not at bin 0 (41 R165, R166). -/
theorem runOpenResults_inRange {s : State} {e k mag : Nat} (hs : s.Inv) (he : e ≤ s.frameSize * 2 ^ 30)
    (he' : e ≤ 2 ^ 42) (hk : k < 2 ^ (s.lexp - 1)) (hk' : k ≤ 2047) : (runOpenResults s e k mag).InRange := by
  have gated {code : ResultCode} (hcode : code ≠ .note) : Results.InRange { Results.zero with
      code := code, energy := BitVec.ofNat 43 e, rms := BitVec.ofNat 16 (rmsOf e s.frameSize)
      peakBin := BitVec.ofNat 12 k, peakMag := BitVec.ofNat 44 mag } :=
    Results.inRange_of_no_note hcode (toNat_ofNat_le he') (toNat_ofNat_le (rmsOf_le he)) (toNat_ofNat_le hk')
  obtain ⟨⟨hmin, hmax⟩, hrate, -⟩ := hs
  simp only [runOpenResults]
  split
  · exact gated (by decide)
  · rename_i nonzero
    refine Results.withNote_inRange (gated (by decide)) (binFreq_pos _ nonzero ?_)
      (binFreq_lt hmin hmax s.rate.isLt hk)
    exact fun h => hrate (BitVec.eq_of_toNat_eq h)

theorem runResults_inRange {s : State} {r : Results} (hs : s.Inv) (h : runResults s = .ok r) : r.InRange := by
  unfold runResults at h
  split at h
  · cases h
  · rename_i xs hxs
    have he := s.frame_energy_le hxs
    have he' := hs.energy_le hxs
    simp only at h
    split at h
    · cases h
      exact runOpenResults_inRange hs he he' (spectralPeak_fst_lt _ hs.exponentLegal.1 xs) (hs.peakBin_le xs)
    · cases h
      exact Results.inRange_of_no_note (by decide) (toNat_ofNat_le he') (toNat_ofNat_le (rmsOf_le he)) (Nat.zero_le _)

theorem bin2freqResults_inRange (s : State) : (bin2freqResults s).InRange :=
  Results.inRange_of_no_note (by decide) (Nat.zero_le _) (Nat.zero_le _) (Nat.zero_le _)

theorem mapnoteResults_inRange (s : State) : (mapnoteResults s).InRange := by
  unfold mapnoteResults
  split
  · exact Results.inRange_of_no_note (by decide) (Nat.zero_le _) (Nat.zero_le _) (Nat.zero_le _)
  · rename_i nonzero
    exact Results.withNote_inRange Results.zero_inRange (Nat.pos_of_ne_zero nonzero) s.mapFreq.isLt

theorem execute_inRange {op : EngineCmd} {s : State} {r : Results} (hs : s.Inv) (h : execute op s = .ok r) :
    r.InRange := by
  cases op with
  | run => exact runResults_inRange hs h
  | gate => exact gateResults_inRange hs h
  | spectrum => exact spectrumResults_inRange hs h
  | bin2freq => cases h; exact bin2freqResults_inRange s
  | mapnote => cases h; exact mapnoteResults_inRange s

/-- Settles O53: of the cases of `step_cases`, a completion publishes what `execute` gives and reset the zero results; the
others keep the result registers. -/
theorem stepKeepsResultsInRange : Obligations.StepKeepsResultsInRange := by
  intro s t hs hres h
  obtain hc | ⟨-, w, rest, -, rfl⟩ | ⟨-, op, r, -, hr, rfl⟩ | ⟨-, rfl⟩ := step_cases h
  · exact hc.res_eq ▸ hres
  · exact hres
  · have hr : r.InRange := execute_inRange (s := s.turnUsed) hs hr
    exact hr
  · exact Results.zero_inRange

end Sys2Proof.Machine
end

section
/-! SUPPORT. The register window as the host sees it: which offset names which register, the bits each register has, and
the number each read gives; and the writes that are ignored, whole or in part (20 R73, R74). -/

namespace Sys2Proof.Machine

/-! The address decode. -/

/-- The word index of each register, `off[7:2]` (10 R20). -/
def wordIndex : Reg → Nat
  | .id => 0x00
  | .ctrl => 0x01
  | .srate => 0x02
  | .thresh => 0x03
  | .cmd => 0x04
  | .status => 0x05
  | .err => 0x06
  | .samplePush => 0x07
  | .samplePush2 => 0x08
  | .mapBin => 0x09
  | .mapFreq => 0x0A
  | .result => 0x10
  | .energyLo => 0x11
  | .energyHi => 0x12
  | .rms => 0x13
  | .peakBin => 0x14
  | .peakMagLo => 0x15
  | .peakMagHi => 0x16
  | .freq => 0x17
  | .noteKey => 0x18
  | .notePc => 0x19
  | .noteOct => 0x1A
  | .noteName => 0x1B
  | .noteFreq => 0x1C
  | .noteDev => 0x1D

/-- A register is decoded from its own word index and from no other (10 R20, 20 R71). -/
theorem regAt_eq_some_iff {off : BitVec 8} {r : Reg} : regAt off = some r ↔ off.toNat / 4 = wordIndex r := by
  constructor
  · intro h
    unfold regAt at h
    split at h <;> cases h <;> assumption
  · intro h
    cases r <;> simp only [wordIndex] at h <;> simp only [regAt, h]

theorem regAt_of_reserved {off : BitVec 8} (h : OffsetReserved off) : regAt off = none := by
  cases hr : regAt off with
  | none => rfl
  | some r =>
    have hi := regAt_eq_some_iff.mp hr
    cases r <;> simp only [wordIndex] at hi <;> omega

/-! The reserved bits. -/

/-- Every bit set in `x` is one of the mask's. -/
def BitsWithin {n : Nat} (x mask : BitVec n) : Prop := x &&& ~~~mask = 0#n

theorem bitsWithin_allOnes {n : Nat} (x : BitVec n) : BitsWithin x (BitVec.allOnes n) := by
  simp [BitsWithin]

theorem bitsWithin_zero {n : Nat} (mask : BitVec n) : BitsWithin 0#n mask := BitVec.zero_and

/-- A concatenation is within a mask when its parts are within the mask's. -/
theorem BitsWithin.append {m n : Nat} {x a : BitVec m} {y b : BitVec n} (hx : BitsWithin x a) (hy : BitsWithin y b) :
    BitsWithin (x ++ y) (a ++ b) := by
  unfold BitsWithin at *
  rw [BitVec.not_append, BitVec.and_append, hx, hy, BitVec.zero_append_zero]

/-- A field of `n` bits, zero-extended to a word, stays within the low `n` bits. -/
theorem bitsWithin_setWidth {n : Nat} (x : BitVec n) : BitsWithin (x.setWidth 32) ((BitVec.allOnes n).setWidth 32) := by
  ext i hi
  by_cases h : i < n <;> simp [h]
  exact BitVec.getLsbD_of_ge x i (Nat.le_of_not_lt h)

theorem ctrlWord_bitsWithin (s : State) : BitsWithin (ctrlWord s) (regMask .ctrl) := by
  have hmask : regMask .ctrl = 0#14 ++ BitVec.allOnes 1 ++ BitVec.allOnes 1 ++ 0#7 ++ BitVec.allOnes 1 ++ 0#2 ++
      BitVec.allOnes 2 ++ BitVec.allOnes 4 := by decide
  rw [hmask]
  exact (bitsWithin_zero _).append (bitsWithin_allOnes _) |>.append (bitsWithin_allOnes _) |>.append (bitsWithin_zero _)
    |>.append (bitsWithin_allOnes _) |>.append (bitsWithin_zero _) |>.append (bitsWithin_allOnes _)
    |>.append (bitsWithin_allOnes _)

theorem statusWord_bitsWithin (s : State) : BitsWithin (statusWord s) (regMask .status) := by
  have hmask : regMask .status = 0#3 ++ BitVec.allOnes 13 ++ 0#8 ++ BitVec.allOnes 4 ++ BitVec.allOnes 1 ++
      BitVec.allOnes 1 ++ BitVec.allOnes 1 ++ BitVec.allOnes 1 := by decide
  rw [hmask]
  exact (bitsWithin_zero _).append (bitsWithin_allOnes _) |>.append (bitsWithin_zero _) |>.append (bitsWithin_allOnes _)
    |>.append (bitsWithin_allOnes _) |>.append (bitsWithin_allOnes _) |>.append (bitsWithin_allOnes _)
    |>.append (bitsWithin_allOnes _)

theorem resultWord_bitsWithin (r : Results) : BitsWithin (resultWord r) (regMask .result) := by
  have hmask : regMask .result = 0#20 ++ BitVec.allOnes 4 ++ 0#4 ++ BitVec.allOnes 4 := by decide
  rw [hmask]
  exact (bitsWithin_zero _).append (bitsWithin_allOnes _) |>.append (bitsWithin_zero _) |>.append (bitsWithin_allOnes _)

/-- Every reserved bit reads 0 (20 R73). -/
theorem registerRead_bitsWithin (r : Reg) (s : State) : BitsWithin (registerRead (some r) s) (regMask r) := by
  cases r with
  | ctrl => exact ctrlWord_bitsWithin s
  | status => exact statusWord_bitsWithin s
  | result => exact resultWord_bitsWithin s.res
  | cmd | samplePush | samplePush2 => exact bitsWithin_zero _
  | id | energyLo | peakMagLo | noteKey | noteOct | noteName | noteFreq | noteDev => exact bitsWithin_allOnes _
  | srate | thresh | err | mapBin | mapFreq | energyHi | rms | peakBin | peakMagHi | freq | notePc =>
    exact bitsWithin_setWidth _

/-! The numbers the reads give. -/

/-- A concatenation as a number: the high part shifted past the low one. -/
theorem toNat_append_eq_add {m n : Nat} (x : BitVec m) (y : BitVec n) :
    (x ++ y).toNat = x.toNat * 2 ^ n + y.toNat := by
  rw [BitVec.toNat_append, ← Nat.shiftLeft_add_eq_or_of_lt y.isLt, Nat.shiftLeft_eq]

theorem Window.bits_toNat (w : Window) : w.bits.toNat = if w = .hann then 0 else 1 := by
  cases w <;> rfl

theorem State.full_toNat (s : State) : s.full.toNat = if s.fill = 2 ^ s.log2n.toNat then 1 else 0 := by
  simp only [State.full, State.frameSize, State.lexp]
  split <;> simp [*]

theorem ctrlWord_toNat (s : State) : (ctrlWord s).toNat =
    s.ieErr.toNat * 2 ^ 17 + s.ieDone.toNat * 2 ^ 16 + s.autoRun.toNat * 2 ^ 8 +
      (if s.win = .hann then 0 else 1) * 2 ^ 4 + s.log2n.toNat := by
  simp only [ctrlWord, toNat_append_eq_add, BitVec.toNat_ofBool, Window.bits_toNat, BitVec.toNat_ofNat]
  omega

theorem statusWord_toNat (s : State) : (statusWord s).toNat =
    s.fill % 2 ^ 13 * 2 ^ 16 + (opcodeField s.engine).toNat * 2 ^ 4 + s.irq.toNat * 2 ^ 3 +
      (if s.fill = 2 ^ s.log2n.toNat then 1 else 0) * 2 ^ 2 + s.done.toNat * 2 + s.engine.isSome.toNat := by
  simp only [statusWord, toNat_append_eq_add, BitVec.toNat_ofBool, State.full_toNat, State.busy, BitVec.toNat_ofNat]
  omega

theorem resultWord_toNat (r : Results) :
    (resultWord r).toNat = (opcodeField r.srcOp).toNat * 2 ^ 8 + r.code.bits.toNat := by
  simp only [resultWord, toNat_append_eq_add, BitVec.toNat_ofNat]
  omega

/-- The low word of a wide result is its remainder by 2^32 (10 R41, R44). -/
theorem toNat_lowWord {n : Nat} (x : BitVec n) : (x.extractLsb' 0 32).toNat = x.toNat % 2 ^ 32 := by
  rw [BitVec.extractLsb'_toNat, Nat.shiftRight_zero]

/-- The high word of a wide result holds all that is above its low word (10 R41, R44). -/
theorem toNat_highWord {n h : Nat} (x : BitVec n) (hn : n = 32 + h := by decide) (hh : h ≤ 32 := by decide) :
    ((x.extractLsb' 32 h).setWidth 32).toNat = x.toNat / 2 ^ 32 := by
  subst hn
  rw [BitVec.toNat_setWidth_of_le hh, BitVec.extractLsb'_toNat, Nat.shiftRight_eq_div_pow]
  refine Nat.mod_eq_of_lt (Nat.div_lt_of_lt_mul ?_)
  rw [← Nat.pow_add]
  exact x.isLt

/-- When each line of a table names the register at its offset and the number that register reads as, every read at an
offset of the table gives the number of its line. -/
theorem registerRead_toNat_of_mem {s : State} {table : List (Nat × Nat)} {off : BitVec 8} {value : Nat}
    (htable : ∀ p ∈ table, ∃ r, p.1 = 4 * wordIndex r ∧ (registerRead (some r) s).toNat = p.2)
    (hmem : (off.toNat, value) ∈ table) : (registerRead (regAt off) s).toNat = value := by
  obtain ⟨r, hoff, hvalue⟩ := htable _ hmem
  have hr : regAt off = some r := by
    rw [regAt_eq_some_iff, show off.toNat = 4 * wordIndex r from hoff, Nat.mul_div_cancel_left _ (by decide)]
  rw [hr, hvalue]

/-- Settles O7. No register holds the bus's answer, so a second read gives the same word; `registerRead_bitsWithin`
gives the reserved bits, and each register's number comes from its word at the offset the list names. -/
theorem readsHaveNoSideEffect : Obligations.ReadsHaveNoSideEffect := by
  intro s off aligned
  refine ⟨_, rfl, hostAccess_read aligned s, ?_, fun hoff => ?_, fun r hr => ?_, fun value hmem => ?_⟩
  · rw [hostAccess_read aligned]
    rfl
  · obtain rfl | rfl | rfl | reserved := hoff
    · rfl
    · rfl
    · rfl
    · rw [regAt_of_reserved reserved, registerRead]
  · rw [hr]
    exact registerRead_bitsWithin r s
  · refine registerRead_toNat_of_mem ?_ hmem
    simp only [List.forall_mem_cons, List.not_mem_nil, false_imp_iff, implies_true, and_true]
    exact ⟨⟨.id, rfl, rfl⟩, ⟨.ctrl, rfl, ctrlWord_toNat s⟩, ⟨.srate, rfl, BitVec.toNat_setWidth_of_le (by decide)⟩,
      ⟨.thresh, rfl, BitVec.toNat_setWidth_of_le (by decide)⟩, ⟨.status, rfl, statusWord_toNat s⟩,
      ⟨.err, rfl, BitVec.toNat_setWidth_of_le (by decide)⟩, ⟨.mapBin, rfl, BitVec.toNat_setWidth_of_le (by decide)⟩,
      ⟨.mapFreq, rfl, BitVec.toNat_setWidth_of_le (by decide)⟩, ⟨.result, rfl, resultWord_toNat s.res⟩,
      ⟨.energyLo, rfl, toNat_lowWord s.res.energy⟩, ⟨.energyHi, rfl, toNat_highWord s.res.energy⟩,
      ⟨.rms, rfl, BitVec.toNat_setWidth_of_le (by decide)⟩, ⟨.peakBin, rfl, BitVec.toNat_setWidth_of_le (by decide)⟩,
      ⟨.peakMagLo, rfl, toNat_lowWord s.res.peakMag⟩, ⟨.peakMagHi, rfl, toNat_highWord s.res.peakMag⟩,
      ⟨.freq, rfl, BitVec.toNat_setWidth_of_le (by decide)⟩, ⟨.noteKey, rfl, rfl⟩,
      ⟨.notePc, rfl, BitVec.toNat_setWidth_of_le (by decide)⟩, ⟨.noteOct, rfl, rfl⟩, ⟨.noteName, rfl, rfl⟩,
      ⟨.noteFreq, rfl, rfl⟩, ⟨.noteDev, rfl, rfl⟩⟩

/-! Writes. -/

/-- The read-only registers: ID, and RESULT to NOTE_DEV (20 R74). -/
theorem registerWrite_readOnly {r : Reg} (h : wordIndex r = 0x00 ∨ 0x10 ≤ wordIndex r) (w : Word) (s : State) :
    registerWrite (some r) w s = .next s := by
  cases r with
  | id | result | energyLo | energyHi | rms | peakBin | peakMagLo | peakMagHi | freq | noteKey | notePc | noteOct
  | noteName | noteFreq | noteDev => rfl
  | ctrl | srate | thresh | cmd | status | err | samplePush | samplePush2 | mapBin | mapFreq => simp [wordIndex] at h

/-- A field that a mask holds whole is the same with and without the mask. -/
theorem extractLsb'_and_of_allOnes {m : Word} {i n : Nat} (h : m.extractLsb' i n = BitVec.allOnes n) (w : Word) :
    (w &&& m).extractLsb' i n = w.extractLsb' i n := by
  rw [BitVec.extractLsb'_and, h, BitVec.and_allOnes]

/-- A bit that a mask holds is the same with and without the mask. -/
theorem getLsbD_and_of_true {m : Word} {i : Nat} (h : m.getLsbD i = true) (w : Word) :
    (w &&& m).getLsbD i = w.getLsbD i := by
  rw [BitVec.getLsbD_and, h, Bool.and_true]

theorem writeCtrl_and_mask (w : Word) (s : State) : writeCtrl (w &&& regMask .ctrl) s = writeCtrl w s := by
  unfold writeCtrl windowOf
  rw [extractLsb'_and_of_allOnes (i := 4) (n := 2) (by decide),
    extractLsb'_and_of_allOnes (i := 0) (n := 4) (by decide), getLsbD_and_of_true (i := 8) (by decide),
    getLsbD_and_of_true (i := 16) (by decide), getLsbD_and_of_true (i := 17) (by decide)]

theorem writeSrate_and_mask (w : Word) (s : State) : writeSrate (w &&& regMask .srate) s = writeSrate w s := by
  unfold writeSrate
  rw [extractLsb'_and_of_allOnes (by decide)]

/-- A configuration write uses the implemented bits of its word and no other (20 R74). -/
theorem registerWrite_and_mask {r : Reg} (hr : r ∈ [Reg.ctrl, .srate, .thresh, .mapBin, .mapFreq]) (w : Word)
    (s : State) : registerWrite (some r) (w &&& regMask r) s = registerWrite (some r) w s := by
  simp only [List.mem_cons, List.not_mem_nil, or_false] at hr
  obtain rfl | rfl | rfl | rfl | rfl := hr
  · simp only [registerWrite, funext (writeCtrl_and_mask w)]
  · simp only [registerWrite, funext (writeSrate_and_mask w)]
  all_goals
    simp only [registerWrite]
    rw [extractLsb'_and_of_allOnes (by decide)]

/-- Settles O8: what is decoded at the offset is read-only or nothing; and a configuration write of a word is that of
its implemented bits. -/
theorem readOnlyAndReservedWritesIgnored : Obligations.ReadOnlyAndReservedWritesIgnored := by
  intro s off w w' aligned
  refine ⟨fun hoff => ?_, fun r hr hmem hmask => ?_⟩
  · rw [hostAccess_write aligned]
    cases hr : regAt off with
    | none => rfl
    | some r =>
      have hi := regAt_eq_some_iff.mp hr
      refine registerWrite_readOnly ?_ w _
      obtain rfl | hresult | reserved := hoff
      · exact .inl hi.symm
      · right; omega
      · rw [regAt_of_reserved reserved] at hr
        cases hr
  · rw [hostAccess_write aligned, hostAccess_write aligned, hr, ← registerWrite_and_mask hmem w, hmask,
      registerWrite_and_mask hmem w']

end Sys2Proof.Machine
end

section
/-! SUPPORT. What a turn does with the transaction or the sample it takes, and the bus error (20 R72, 40 R141). -/

namespace Sys2Proof.Machine

/-! Turns. -/

theorem issue_of_decode {q : Issue} {i : Instr} (h : decode q = .ok i) (s : State) : issue q s = exec i s := by
  simp [issue, h]

/-- A host's turn is the transaction it has waiting, with the transaction and the turn used (00 R6). -/
theorem step_of_host_next {s : State} {op : HostOp} {rest : List HostOp} (hn : s.nextAgent = some .host)
    (hq : s.hostQ = op :: rest) : step s = hostAccess op { s with hostQ := rest, sched := s.sched.tail } := by
  simp [step, hn, takeTurn, hostTurn, hq, State.turnUsed]

/-- A stream source's turn issues the sample it has waiting, with the sample and the turn used (00 R6). -/
theorem step_of_stream_next {s : State} {d : BitVec 16} {rest : List (BitVec 16)} (hn : s.nextAgent = some .stream)
    (hq : s.streamQ = d :: rest) :
    step s = issue (.stream d) { s with streamQ := rest, sched := s.sched.tail } := by
  simp [step, hn, takeTurn, streamTurn, hq, State.turnUsed]

/-- A write at the offset of a port issues the word there and is answered (20 R72, 30 R100). -/
theorem hostAccess_write_port {off : BitVec 8} {w : Word} {q : Issue}
    (h : (off, q) ∈ [((0x10 : BitVec 8), Issue.cmd w), (0x1C, .samplePush w), (0x20, .samplePush2 w)]) (s : State) :
    hostAccess (.write off 4 w) s = issue q { s with resp := .ok } := by
  simp only [List.mem_cons, Prod.mk.injEq, List.not_mem_nil, or_false] at h
  obtain ⟨rfl, rfl⟩ | ⟨rfl, rfl⟩ | ⟨rfl, rfl⟩ := h
  all_goals exact hostAccess_write (by decide) w s

/-- Settles O4: the turn issues what is waiting, and an issue that decodes is its instruction's meaning. -/
theorem stepRunsTheDecodedInstruction : Obligations.StepRunsTheDecodedInstruction := by
  refine ⟨fun s off w rest q i hn hq hport hd _ => ?_, fun s d rest i hn hq hd _ => ?_⟩
  · rw [step_of_host_next hn hq, hostAccess_write_port hport, issue_of_decode hd]
  · rw [step_of_stream_next hn hq, issue_of_decode hd]

/-! The error response. -/

theorem hostAccess_write_rejected {off : BitVec 8} {size : Nat} (h : off.toNat % 4 ≠ 0 ∨ size ≠ 4) (w : Word)
    (s : State) : hostAccess (.write off size w) s = .next { s with resp := .busError } :=
  if_neg (not_and_or.mpr h)

theorem hostAccess_read_rejected {off : BitVec 8} (h : off.toNat % 4 ≠ 0) (s : State) :
    hostAccess (.read off) s = .next { s with resp := .busError } :=
  if_neg h

/-- Settles O6: the two rejections, and the two accesses that are decoded. -/
theorem busErrorChangesNothing : Obligations.BusErrorChangesNothing :=
  fun s _ _ w => ⟨fun h => hostAccess_write_rejected h w s, fun h => hostAccess_read_rejected h s,
    fun aligned => hostAccess_write aligned w s, fun aligned => hostAccess_read aligned s⟩

end Sys2Proof.Machine
end

section
/-! SUPPORT. The decoder and the encoder as inverses of each other (30 R102, R107; 20 R75): the command words as a table,
and the bytes of a word as the word. -/

namespace Sys2Proof

/-! Command words. -/

/-- The encoding table of the command words (30 R102). -/
def commandTable : List (Word × Instr) :=
  [(0, .nop), (1, .run), (2, .gate), (3, .spectrum), (4, .bin2freq), (5, .mapnote), (6, .flush)]

theorem decodeCommand_of_mem {w : Word} {i : Instr} (h : (w, i) ∈ commandTable) : decodeCommand w = .ok i := by
  have table : ∀ e ∈ commandTable, decodeCommand e.1 = .ok e.2 := by decide
  exact table (w, i) h

theorem encode_of_mem {w : Word} {i : Instr} (h : (w, i) ∈ commandTable) : encode i = .cmd w := by
  have table : ∀ e ∈ commandTable, encode e.2 = .cmd e.1 := by decide
  exact table (w, i) h

theorem exists_instr_of_le_six {opcode : BitVec 8} (h : opcode.toNat ≤ 6) : ∃ i, (0#24 ++ opcode, i) ∈ commandTable := by
  have table : ∀ n ≤ 6, ∃ e ∈ commandTable, e.1 = 0#24 ++ BitVec.ofNat 8 n := by decide
  obtain ⟨⟨w, i⟩, hmem, rfl⟩ := table _ h
  exact ⟨i, by simpa using hmem⟩

/-- A word whose reserved bits are 0 and whose opcode is defined stands in the table (30 R101 to R103). -/
theorem exists_instr_of_legal {w : Word} (reserved : w.extractLsb' 8 24 = 0#24)
    (defined : (w.extractLsb' 0 8).toNat ≤ 6) : ∃ i, (w, i) ∈ commandTable := by
  have hw : 0#24 ++ w.extractLsb' 0 8 = w := reserved ▸ BitVec.extractLsb'_append_extractLsb'
  exact hw ▸ exists_instr_of_le_six defined

theorem decodeCommand_of_illegal {w : Word} (h : w.extractLsb' 8 24 ≠ 0#24 ∨ 6 < (w.extractLsb' 0 8).toNat) :
    decodeCommand w = .reject (.illegalCommand w) := by
  unfold decodeCommand
  split
  · rename_i reserved
    have undefined : 6 < (w.extractLsb' 0 8).toNat := h.resolve_left (not_not_intro reserved)
    split
    case h_8 => rfl
    all_goals omega
  · rfl

/-- The decoder finds a CMD word in the table, or refuses it. -/
theorem decodeCommand_cases (w : Word) :
    ((w.extractLsb' 8 24 ≠ 0#24 ∨ 6 < (w.extractLsb' 0 8).toNat) ∧ decodeCommand w = .reject (.illegalCommand w)) ∨
    (¬(w.extractLsb' 8 24 ≠ 0#24 ∨ 6 < (w.extractLsb' 0 8).toNat) ∧ ∃ i, (w, i) ∈ commandTable) := by
  by_cases h : w.extractLsb' 8 24 ≠ 0#24 ∨ 6 < (w.extractLsb' 0 8).toNat
  · exact .inl ⟨h, decodeCommand_of_illegal h⟩
  · obtain ⟨reserved, defined⟩ := not_or.mp h
    exact .inr ⟨h, exists_instr_of_legal (not_not.mp reserved) (Nat.le_of_not_lt defined)⟩

theorem decodeCommand_eq_ok_iff {w : Word} {i : Instr} : decodeCommand w = .ok i ↔ (w, i) ∈ commandTable := by
  refine ⟨fun h => ?_, decodeCommand_of_mem⟩
  obtain ⟨-, hreject⟩ | ⟨-, j, hmem⟩ := decodeCommand_cases w
  · simp [hreject] at h
  · obtain rfl : j = i := by simpa [decodeCommand_of_mem hmem] using h
    exact hmem

theorem decodeCommand_eq_reject_iff {w : Word} :
    decodeCommand w = .reject (.illegalCommand w) ↔ w.extractLsb' 8 24 ≠ 0#24 ∨ 6 < (w.extractLsb' 0 8).toNat := by
  refine ⟨fun h => ?_, decodeCommand_of_illegal⟩
  obtain ⟨illegal, -⟩ | ⟨-, i, hmem⟩ := decodeCommand_cases w
  · exact illegal
  · simp [decodeCommand_of_mem hmem] at h

/-! Issues. -/

theorem decode_encode (i : Instr) : decode (encode i) = .ok i := by
  cases i with
  | nop | run | gate | spectrum | bin2freq | mapnote | flush => decide
  | samplePush sample ignored =>
    exact congrArg₂ (fun low high => Decoded.ok (.samplePush low high)) BitVec.extractLsb'_append_eq_right
      BitVec.extractLsb'_append_eq_left
  | samplePush2 first second =>
    exact congrArg₂ (fun low high => Decoded.ok (.samplePush2 low high)) BitVec.extractLsb'_append_eq_right
      BitVec.extractLsb'_append_eq_left
  | streamPush => rfl

theorem encode_of_decode {q : Issue} {i : Instr} (h : decode q = .ok i) : encode i = q := by
  cases q with
  | cmd w => exact encode_of_mem (decodeCommand_eq_ok_iff.mp h)
  | samplePush w =>
    cases h
    exact congrArg Issue.samplePush BitVec.extractLsb'_append_extractLsb'
  | samplePush2 w =>
    cases h
    exact congrArg Issue.samplePush2 BitVec.extractLsb'_append_extractLsb'
  | stream d =>
    cases h
    rfl

/-! Bytes. -/

/-- The byte lanes of a word put together give the word (20 R75). -/
theorem wordOfBytes_lanes (w : Word) :
    wordOfBytes (w.extractLsb' 0 8) (w.extractLsb' 8 8) (w.extractLsb' 16 8) (w.extractLsb' 24 8) = w := by
  calc wordOfBytes (w.extractLsb' 0 8) (w.extractLsb' 8 8) (w.extractLsb' 16 8) (w.extractLsb' 24 8)
    _ = w.extractLsb' 16 16 ++ w.extractLsb' 8 8 ++ w.extractLsb' 0 8 := by
      rw [wordOfBytes, BitVec.extractLsb'_append_extractLsb'_eq_extractLsb' (by rfl)]
    _ = w.extractLsb' 8 24 ++ w.extractLsb' 0 8 := by
      rw [BitVec.extractLsb'_append_extractLsb'_eq_extractLsb' (by rfl)]
    _ = w := BitVec.extractLsb'_append_extractLsb'

theorem decodeBytes_bytes (q : Issue) : decodeBytes q.port q.bytes = decode q := by
  cases q with
  | cmd w => exact congrArg (decode ∘ Issue.cmd) (wordOfBytes_lanes w)
  | samplePush w => exact congrArg (decode ∘ Issue.samplePush) (wordOfBytes_lanes w)
  | samplePush2 w => exact congrArg (decode ∘ Issue.samplePush2) (wordOfBytes_lanes w)
  | stream d => exact congrArg (decode ∘ Issue.stream) BitVec.extractLsb'_append_extractLsb'

/-- Settles O1: by cases on the instruction, and the bytes of its issue are its word. -/
theorem decodeInvertsEncode : Obligations.DecodeInvertsEncode :=
  fun i _ => ⟨decode_encode i, (decodeBytes_bytes (encode i)).trans (decode_encode i)⟩

/-- Settles O2: by cases on the port; a CMD word that decodes stands in the table. -/
theorem encodeInvertsDecode : Obligations.EncodeInvertsDecode :=
  fun _ _ h => encode_of_decode h

/-- Settles O3: each word is written out, so the decoder runs on it. -/
theorem encodingTableWordsDecode : Obligations.EncodingTableWordsDecode := by
  unfold Obligations.EncodingTableWordsDecode
  decide

end Sys2Proof
end

section
/-! SUPPORT. The CMD write in the order of 40 R130: what each command word's CMD write does, with its checks written out
as the conditions they test. -/

namespace Sys2Proof.Machine

/-! The checks. -/

theorem State.ifFull_eq (s : State) (k : State → State) :
    s.ifFull k = if s.fill ≠ s.frameSize then s.raise .notFull else k s := by
  by_cases h : s.fill = s.frameSize
  · rw [State.ifFull_of_full h, if_neg (not_not_intro h)]
  · rw [State.ifFull_of_not_full h, if_pos h]

/-- The checks of a command that wants a full frame, in order (40 R130). -/
theorem State.acceptOnFrame_eq (op : EngineCmd) (s : State) :
    (s.unlessBusy fun s => s.ifFull fun s => s.accept op) =
      if s.busy = true then s.raise .busyCmd
      else if s.fill ≠ s.frameSize then s.raise .notFull
      else s.accept op := by
  rw [State.unlessBusy, State.ifFull_eq]

/-! CMD writes. The decoder evaluates on a literal command word, so the write of one is its instruction's checks by
unfolding. -/

/-- A CMD write issues the word and is answered (20 R72, 30 R100). -/
theorem hostAccess_write_cmd (w : Word) (s : State) :
    hostAccess (.write 0x10 4 w) s = issue (.cmd w) { s with resp := .ok } :=
  hostAccess_write_port (by simp) s

/-- The CMD write of an illegal word raises ILLEGAL_CMD and does nothing else, busy or not (30 R103). -/
theorem hostAccess_write_cmd_of_illegal {w : Word}
    (h : w.extractLsb' 8 24 ≠ 0#24 ∨ 6 < (w.extractLsb' 0 8).toNat) (s : State) :
    hostAccess (.write 0x10 4 w) s = .next { s with resp := .ok, err := s.err ||| 0x01#7 } := by
  rw [hostAccess_write_cmd, issue, decode, decodeCommand_of_illegal h]
  rfl

/-- The CMD write of RUN, GATE or SPECTRUM (41 R164, R165; 42 R206): BUSY_CMD, NOT_FULL or acceptance. -/
theorem hostAccess_write_frameCommand {w : Word} {op : EngineCmd}
    (h : (w, op) ∈ [((1 : Word), EngineCmd.run), (2, .gate), (3, .spectrum)]) (s : State) :
    hostAccess (.write 0x10 4 w) s = .next
      (if s.busy = true then { s with resp := .ok, err := s.err ||| 0x02#7 }
      else if s.fill ≠ s.frameSize then { s with resp := .ok, err := s.err ||| 0x04#7 }
      else { s with resp := .ok, engine := some op, done := false }) := by
  simp only [List.mem_cons, Prod.mk.injEq, List.not_mem_nil, or_false] at h
  obtain ⟨rfl, rfl⟩ | ⟨rfl, rfl⟩ | ⟨rfl, rfl⟩ := h
  all_goals
    rw [hostAccess_write_cmd]
    exact congrArg Host.Outcome.next (State.acceptOnFrame_eq _ { s with resp := .ok })

/-- The CMD write of BIN2FREQ (42 R205): BUSY_CMD, ARG_ERR or acceptance. -/
theorem hostAccess_write_bin2freq (s : State) :
    hostAccess (.write 0x10 4 4) s = .next
      (if s.busy = true then { s with resp := .ok, err := s.err ||| 0x02#7 }
      else if s.frameSize / 2 ≤ s.mapBin.toNat then { s with resp := .ok, err := s.err ||| 0x40#7 }
      else { s with resp := .ok, engine := some .bin2freq, done := false }) :=
  hostAccess_write_cmd 4 s

/-- The CMD write of MAPNOTE (43 R244): BUSY_CMD or acceptance. -/
theorem hostAccess_write_mapnote (s : State) :
    hostAccess (.write 0x10 4 5) s = .next
      (if s.busy = true then { s with resp := .ok, err := s.err ||| 0x02#7 }
      else { s with resp := .ok, engine := some .mapnote, done := false }) :=
  hostAccess_write_cmd 5 s

/-- The CMD write of FLUSH (40 R136): BUSY_CMD or an empty frame. -/
theorem hostAccess_write_flush (s : State) :
    hostAccess (.write 0x10 4 6) s = .next
      (if s.busy = true then { s with resp := .ok, err := s.err ||| 0x02#7 }
      else { s with resp := .ok, fill := 0 }) :=
  hostAccess_write_cmd 6 s

/-- Settles O14: an illegal word is refused; every other word stands in the encoding table, and its CMD write tests the
conditions of the chain that its word leaves. -/
theorem cmdWriteFollowsPriority : Obligations.CmdWriteFollowsPriority := by
  intro s w
  refine ⟨decodeCommand_eq_reject_iff.symm, ?_⟩
  obtain ⟨illegal, -⟩ | ⟨legal, i, hmem⟩ := decodeCommand_cases w
  · rw [hostAccess_write_cmd_of_illegal illegal, if_pos illegal]
  · rw [if_neg legal]
    simp only [commandTable, List.mem_cons, Prod.mk.injEq, List.not_mem_nil, or_false] at hmem
    obtain ⟨rfl, -⟩ | ⟨rfl, -⟩ | ⟨rfl, -⟩ | ⟨rfl, -⟩ | ⟨rfl, -⟩ | ⟨rfl, -⟩ | ⟨rfl, -⟩ := hmem
    · exact hostAccess_write_cmd 0 s
    · rw [hostAccess_write_frameCommand (op := .run) (by decide)]
      simp
    · rw [hostAccess_write_frameCommand (op := .gate) (by decide)]
      simp
    · rw [hostAccess_write_frameCommand (op := .spectrum) (by decide)]
      simp
    · rw [hostAccess_write_bin2freq]
      simp
    · rw [hostAccess_write_mapnote]
      simp
    · rw [hostAccess_write_flush]
      simp

end Sys2Proof.Machine
end

section
/-! SUPPORT. The instruction placed by `withFetchWord` (log entry 4): its port, its bytes, and the step that runs it; and
the CTRL word (30 R105). -/

namespace Sys2Proof.Machine

/-! The issue a table row's bits stand for. -/

/-- The issue of a number's low bits on a port. -/
def issueAt (n : Nat) : Port → Issue
  | .cmd => .cmd (BitVec.ofNat 32 n)
  | .samplePush => .samplePush (BitVec.ofNat 32 n)
  | .samplePush2 => .samplePush2 (BitVec.ofNat 32 n)
  | .stream => .stream (BitVec.ofNat 16 n)

/-- The issue of a table row's bits, at the port `tablePort` gives it. -/
def tableIssue (nbits w : Nat) : Issue := issueAt (w % 2 ^ nbits) (tablePort nbits w)

theorem issueAt_port (n : Nat) (p : Port) : (issueAt n p).port = p := by
  cases p <;> rfl

/-- The byte lane from bit `i` on of a number's low bits. -/
theorem ofNat_div_eq_lane {n i : Nat} (width : Nat) (h : i + 8 ≤ width) :
    BitVec.ofNat 8 (n / 2 ^ i) = (BitVec.ofNat width n).extractLsb' i 8 := by
  refine BitVec.eq_of_getLsbD_eq fun j hj => ?_
  have hw : i + j < width := by omega
  simp only [BitVec.getLsbD_ofNat, BitVec.getLsbD_extractLsb', Nat.testBit_div_two_pow, hj, hw, Nat.add_comm,
    decide_true, Bool.true_and]

theorem bytesOfNat_two (n : Nat) : bytesOfNat 2 n = (issueAt n .stream).bytes := by
  have lane0 := ofNat_div_eq_lane (n := n) (i := 0) 16 (by decide)
  have lane1 := ofNat_div_eq_lane (n := n) (i := 8) 16 (by decide)
  simpa [bytesOfNat, issueAt, Issue.bytes] using And.intro lane0 lane1

theorem bytesOfNat_four (n : Nat) : bytesOfNat 4 n = bytesOfWord (BitVec.ofNat 32 n) := by
  have lane0 := ofNat_div_eq_lane (n := n) (i := 0) 32 (by decide)
  have lane1 := ofNat_div_eq_lane (n := n) (i := 8) 32 (by decide)
  have lane2 := ofNat_div_eq_lane (n := n) (i := 16) 32 (by decide)
  have lane3 := ofNat_div_eq_lane (n := n) (i := 24) 32 (by decide)
  simpa [bytesOfNat, bytesOfWord, Nat.div_div_eq_div_mul] using And.intro lane0 ⟨lane1, lane2, lane3⟩

theorem bytesOfNat_eq_bytes (n : Nat) (p : Port) : bytesOfNat p.byteCount n = (issueAt n p).bytes := by
  cases p with
  | cmd | samplePush | samplePush2 => exact bytesOfNat_four n
  | stream => exact bytesOfNat_two n

/-- A table row decodes to what its issue decodes to. -/
theorem decode_tableIssue {nbits w : Nat} {i : Instr} (h : decodeTableWord nbits w = some i) :
    decode (tableIssue nbits w) = .ok i := by
  have bytes := decodeBytes_bytes (tableIssue nbits w)
  rw [tableIssue, issueAt_port, ← bytesOfNat_eq_bytes] at bytes
  rw [decodeTableWord, bytes] at h
  split at h
  · rename_i j decoded
    cases h
    exact decoded
  · cases h

/-! The step. -/

theorem step_withHostWrite (off : BitVec 8) (w : Word) (s : State) :
    step (s.withHostWrite off w) = hostAccess (.write off 4 w) s :=
  step_of_host_next (s := s.withHostWrite off w) rfl rfl

theorem step_withStreamOffer (d : BitVec 16) (s : State) : step (s.withStreamOffer d) = issue (.stream d) s :=
  step_of_stream_next (s := s.withStreamOffer d) rfl rfl

theorem tablePort_of_le {nbits : Nat} (h : nbits ≤ 16) (w : Nat) : tablePort nbits w = .stream := if_pos h

theorem tablePort_of_lt {nbits : Nat} (h : 16 < nbits) (w : Nat) :
    tablePort nbits w = .cmd ∨ tablePort nbits w = .samplePush := by
  rw [tablePort, if_neg (Nat.not_le_of_lt h)]
  exact ite_eq_or_eq _ _ _

/-- The step after a table row is placed issues it, with the bus's answer when it was a write. -/
theorem step_withFetchWord (s : State) (nbits w : Nat) :
    step (s.withFetchWord nbits w) =
      issue (tableIssue nbits w) (if nbits ≤ 16 then s else { s with resp := .ok }) := by
  rw [State.withFetchWord, State.withTableWord, tableIssue]
  by_cases h : nbits ≤ 16
  · rw [if_pos h, tablePort_of_le h]
    exact step_withStreamOffer _ s
  · rw [if_neg h]
    obtain hp | hp := tablePort_of_lt (Nat.lt_of_not_le h) w
    all_goals
      rw [hp]
      exact (step_withHostWrite _ _ s).trans (hostAccess_write_port (by simp [issueAt]) s)

/-- Settles O5: the row's bytes are those of its issue, and the next step issues it. -/
theorem placedTableWordRunsNext : Obligations.PlacedTableWordRunsNext := by
  intro s nbits w i h
  rw [step_withFetchWord, issue_of_decode (decode_tableIssue h)]

/-! The CTRL word. -/

/-- Settles O9: the concatenation as a sum, and the reset word. -/
theorem ctrlWordAssembled : Obligations.CtrlWordAssembled := ⟨ctrlWord_toNat, by decide⟩

end Sys2Proof.Machine
end

section
/-! SUPPORT. The results of each command fit the one outcome that RESULT names (40 R134, 60 R261). -/

namespace Sys2Proof.Machine

/-! Each command. -/

theorem gateResults_consistent {s : State} {r : Results} (h : gateResults s = .ok r) :
    Results.consistent { r with srcOp := some .gate } = true := by
  unfold gateResults at h
  split at h
  · cases h
  · cases h
    dsimp only
    split <;> exact beq_self_eq_true _

theorem spectrumResults_consistent {s : State} {r : Results} (h : spectrumResults s = .ok r) :
    Results.consistent { r with srcOp := some .spectrum } = true := by
  unfold spectrumResults at h
  split at h
  · cases h
  · cases h
    exact beq_self_eq_true _

/-- An open gate gives DC_PEAK, whose bin is 0, or NOTE, which has every result (41 R165, R166). -/
theorem runOpenResults_consistent (s : State) (e k mag : Nat) :
    Results.consistent { runOpenResults s e k mag with srcOp := some .run } = true := by
  simp only [runOpenResults]
  split
  · rename_i bin
    subst bin
    exact beq_self_eq_true _
  · rfl

theorem runResults_consistent {s : State} {r : Results} (h : runResults s = .ok r) :
    Results.consistent { r with srcOp := some .run } = true := by
  unfold runResults at h
  split at h
  · cases h
  · dsimp only at h
    split at h
    · cases h
      exact runOpenResults_consistent s _ _ _
    · cases h
      exact beq_self_eq_true _

theorem bin2freqResults_consistent (s : State) :
    Results.consistent { bin2freqResults s with srcOp := some .bin2freq } = true :=
  beq_self_eq_true _

/-- INVALID_FREQ has no result, and the note of an operand has those of the note alone (43 R244, R245). -/
theorem mapnoteResults_consistent (s : State) :
    Results.consistent { mapnoteResults s with srcOp := some .mapnote } = true := by
  unfold mapnoteResults
  split <;> exact beq_self_eq_true _

theorem execute_consistent {op : EngineCmd} {s : State} {r : Results} (h : execute op s = .ok r) :
    Results.consistent { r with srcOp := some op } = true := by
  cases op with
  | run => exact runResults_consistent h
  | gate => exact gateResults_consistent h
  | spectrum => exact spectrumResults_consistent h
  | bin2freq => cases h; exact bin2freqResults_consistent s
  | mapnote => cases h; exact mapnoteResults_consistent s

/-- Settles O52: of the cases of `step_cases`, a completion publishes what `execute` gives under its own command's name
and reset the zero results; the others keep the result registers. -/
theorem stepKeepsResultsConsistent : Obligations.StepKeepsResultsConsistent := by
  intro s t hs h
  obtain hc | ⟨-, w, rest, -, rfl⟩ | ⟨-, op, r, -, hr, rfl⟩ | ⟨-, rfl⟩ := step_cases h
  · exact hc.res_eq ▸ hs
  · exact hs
  · exact execute_consistent hr
  · exact beq_self_eq_true Results.zero

end Sys2Proof.Machine
end

section
/-! SUPPORT. What a command computes on, that nothing else is seen in its results (40 R133, 41 R168, 43 R246), and that no
turn of the host or the stream source changes it while the command is in flight (40 R137, R139 to R141, 70 R314). -/

namespace Sys2Proof.Machine

/-! The frame and the configuration are all a command reads. -/

theorem FrameBuffer.readFrom_congr {fb fb' : FrameBuffer} {n i : Nat}
    (h : ∀ j, j < n → FrameBuffer.read fb (i + j) = FrameBuffer.read fb' (i + j)) :
    FrameBuffer.readFrom fb n i = FrameBuffer.readFrom fb' n i := by
  induction n generalizing i with
  | zero => rfl
  | succ n ih =>
    have head : FrameBuffer.read fb i = FrameBuffer.read fb' i := h 0 n.succ_pos
    have tail : FrameBuffer.readFrom fb n (i + 1) = FrameBuffer.readFrom fb' n (i + 1) := ih fun j hj => by
      simpa [Nat.add_assoc, Nat.add_comm 1] using h (j + 1) (Nat.succ_lt_succ hj)
    simp only [FrameBuffer.readFrom, head, tail]

theorem State.frame_congr {s s' : State} (hsize : s.frameSize = s'.frameSize)
    (hfb : ∀ i, i < s.frameSize → FrameBuffer.read s.fb i = FrameBuffer.read s'.fb i) : s.frame = s'.frame := by
  rw [State.frame, State.frame, ← hsize]
  exact FrameBuffer.readFrom_congr fun j hj => by simpa using hfb j hj

/-- Settles O59: the two states read the same frame, and every other operand is one of the six configuration fields. -/
theorem resultsDependOnFrameAndConfiguration : Obligations.ResultsDependOnFrameAndConfiguration := by
  intro op s s' hlog2n hwin hrate hthresh hmapBin hmapFreq hfb
  have hlexp : s.lexp = s'.lexp := congrArg BitVec.toNat hlog2n
  have hsize : s.frameSize = s'.frameSize := congrArg (2 ^ ·) hlexp
  have hframe : s.frame = s'.frame := State.frame_congr hsize hfb
  have hrateHz : s.rateHz = s'.rateHz := congrArg BitVec.toNat hrate
  have hthreshold : s.threshold = s'.threshold := congrArg BitVec.toNat hthresh
  have hbinOperand : s.binOperand = s'.binOperand := congrArg BitVec.toNat hmapBin
  have hfreqOperand : s.freqOperand = s'.freqOperand := congrArg BitVec.toNat hmapFreq
  cases op with
  | run =>
    have hopen : runOpenResults s = runOpenResults s' := by
      funext e k mag
      rw [runOpenResults, runOpenResults, hsize, hrateHz, hlexp]
    rw [execute, execute, runResults, runResults, hframe, hsize, hthreshold, hwin, hlexp, hopen]
  | gate => rw [execute, execute, gateResults, gateResults, hframe, hsize, hthreshold]
  | spectrum => rw [execute, execute, spectrumResults, spectrumResults, hframe, hwin, hlexp, hrateHz]
  | bin2freq => rw [execute, execute, bin2freqResults, bin2freqResults, hbinOperand, hrateHz, hlexp]
  | mapnote => rw [execute, execute, mapnoteResults, mapnoteResults, hfreqOperand]

/-! The freeze. -/

/-- `t` has the command of `s` in flight, on the operands of `s`, with the results of `s` still published. -/
abbrev State.FrozenAs (s t : State) : Prop :=
  t.engine = s.engine ∧ t.log2n = s.log2n ∧ t.win = s.win ∧ t.rate = s.rate ∧ t.thresh = s.thresh ∧
  t.mapBin = s.mapBin ∧ t.mapFreq = s.mapFreq ∧ t.fill = s.fill ∧ t.fb = s.fb ∧ t.res = s.res

theorem State.not_idle_of_busy {s : State} (busy : s.busy = true) : ¬s.Idle :=
  Option.isSome_iff_ne_none.mp busy

/-- Every elementary change that touches an operand or the command is one of an idle engine (40 R130, R137 to R142). -/
theorem Change.keeps_frozen {s t u : State} (busy : s.busy = true) (h : Change t u) (ht : s.FrozenAs t) :
    s.FrozenAs u := by
  have notIdle : ¬t.Idle := by
    obtain ⟨hengine, -⟩ := ht
    exact fun idle => State.not_idle_of_busy busy (hengine.symm.trans idle)
  cases h with
  | outside | raise | clearDone => exact ht
  | accept idle | flush idle | store _ idle | ctrl _ _ _ _ _ idle | srate _ idle | thresh _ idle | mapBin _ idle
  | mapFreq _ idle => exact absurd idle notIdle

theorem Changes.frozen {s t : State} (busy : s.busy = true) (h : Changes s t) : s.FrozenAs t :=
  h.keeps (fun _ _ => Change.keeps_frozen busy) ⟨rfl, rfl, rfl, rfl, rfl, rfl, rfl, rfl, rfl, rfl⟩

/-- Settles O56: a host or stream turn makes elementary changes or is the W1C write of ERR. -/
theorem busyFreezesTheOperands : Obligations.BusyFreezesTheOperands := by
  intro s t busy h turn
  obtain hc | ⟨-, w, rest, -, rfl⟩ | ⟨engineTurn, -⟩ | ⟨resetTurn, -⟩ := step_cases h
  · exact hc.frozen busy
  · exact ⟨rfl, rfl, rfl, rfl, rfl, rfl, rfl, rfl, rfl, rfl⟩
  · simp [engineTurn] at turn
  · simp [resetTurn] at turn

theorem State.FrozenAs.execute_eq {s t : State} (h : s.FrozenAs t) (op : EngineCmd) : execute op t = execute op s := by
  obtain ⟨-, hlog2n, hwin, hrate, hthresh, hmapBin, hmapFreq, -, hfb, -⟩ := h
  exact resultsDependOnFrameAndConfiguration op t s hlog2n hwin hrate hthresh hmapBin hmapFreq fun _ _ => by rw [hfb]

end Sys2Proof.Machine
end

section
/-! SUPPORT. A step uses its own turn of the schedule and leaves the turns after it, whatever it does to the block; so the
steps between an acceptance and its completion can be counted along the schedule (70 R314; log entry 1). -/

namespace Sys2Proof.Machine

/-! The turns. -/

theorem State.push_sched {v : Sample} {s t : State} (h : s.push v = .next t) : t.sched = s.sched := by
  obtain ⟨-, rfl⟩ := State.push_eq_next.mp h
  rw [State.autoStart_eq]
  split <;> rfl

theorem State.regPush_sched {v : Sample} {s t : State} (h : s.regPush v = .next t) : t.sched = s.sched := by
  obtain ⟨-, rfl⟩ | ⟨-, -, inRange, rfl⟩ := State.regPush_eq_next h
  · rfl
  · exact State.push_sched (State.push_eq_next.mpr ⟨inRange, rfl⟩)

theorem State.unlessBusy_sched {s : State} {k : State → State} (h : (k s).sched = s.sched) :
    (s.unlessBusy k).sched = s.sched := by
  unfold State.unlessBusy
  split
  · rfl
  · exact h

theorem State.unlessBusyWrite_sched {s : State} {k : State → State} (h : (k s).sched = s.sched) :
    (s.unlessBusyWrite k).sched = s.sched := by
  unfold State.unlessBusyWrite
  split
  · rfl
  · exact h

theorem State.ifFull_accept_sched (op : EngineCmd) (s : State) : (s.ifFull fun s => s.accept op).sched = s.sched := by
  unfold State.ifFull
  split <;> rfl

theorem exec_sched {i : Instr} {s t : State} (h : exec i s = .next t) : t.sched = s.sched := by
  cases i with
  | nop => cases h; rfl
  | run | gate | spectrum => cases h; exact State.unlessBusy_sched (State.ifFull_accept_sched _ s)
  | bin2freq => cases h; exact State.unlessBusy_sched (by split <;> rfl)
  | mapnote | flush => cases h; exact State.unlessBusy_sched rfl
  | samplePush v g => exact State.regPush_sched h
  | samplePush2 a b =>
    obtain ⟨u, hu, ht⟩ := andThen_eq_next.mp h
    exact (State.regPush_sched ht).trans (State.regPush_sched hu)
  | streamPush v =>
    simp only [exec, execStreamPush] at h
    split at h
    · exact State.push_sched h
    · cases h; rfl

theorem issue_sched {q : Issue} {s t : State} (h : issue q s = .next t) : t.sched = s.sched := by
  obtain ⟨i, -, hi⟩ | ⟨-, hi⟩ := issue_eq q s
  · exact exec_sched (hi ▸ h)
  · rw [hi] at h
    cases h
    rfl

theorem writeCtrl_sched (w : Word) (s : State) : (writeCtrl w s).sched = s.sched := by
  simp only [writeCtrl]
  split
  · rfl
  · split <;> rfl

theorem writeSrate_sched (w : Word) (s : State) : (writeSrate w s).sched = s.sched := by
  unfold writeSrate
  split <;> rfl

theorem registerWrite_sched {r : Option Reg} {w : Word} {s t : State} (h : registerWrite r w s = .next t) :
    t.sched = s.sched := by
  cases r with
  | none => cases h; rfl
  | some r =>
    cases r with
    | cmd => exact issue_sched (q := .cmd w) h
    | samplePush => exact issue_sched (q := .samplePush w) h
    | samplePush2 => exact issue_sched (q := .samplePush2 w) h
    | ctrl => cases h; exact State.unlessBusyWrite_sched (writeCtrl_sched w s)
    | srate => cases h; exact State.unlessBusyWrite_sched (writeSrate_sched w s)
    | thresh | mapBin | mapFreq => cases h; exact State.unlessBusyWrite_sched rfl
    | status => cases h; rw [writeStatus_eq]
    | _ => cases h; rfl

theorem hostAccess_sched {op : HostOp} {s t : State} (h : hostAccess op s = .next t) : t.sched = s.sched := by
  obtain ⟨-, hop⟩ | ⟨off, -, hop⟩ | ⟨off, w, -, hop⟩ := hostAccess_eq op s
  all_goals rw [hop] at h
  · cases h; rfl
  · cases h; rfl
  · exact (registerWrite_sched h :)

theorem takeTurn_sched {a : Agent} {s t : State} (h : takeTurn a s = .next t) : t.sched = s.sched := by
  cases a with
  | host =>
    simp only [takeTurn, hostTurn] at h
    split at h
    · cases h; rfl
    · exact (hostAccess_sched h :)
  | stream =>
    simp only [takeTurn, streamTurn] at h
    split at h
    · cases h; rfl
    · exact (issue_sched h :)
  | engine => obtain ⟨-, rfl⟩ | ⟨op, r, -, -, rfl⟩ := complete_eq_next h <;> rfl
  | reset => cases h; rfl

theorem State.nextAgent_of_sched {s : State} {a : Agent} {q : List Agent} (h : s.sched = a :: q) :
    s.nextAgent = some a := by
  simp [State.nextAgent, h]

/-- The step of a scheduled turn leaves the turns after it (00 R6; log entry 1). -/
theorem step_sched {s t : State} {a : Agent} {q : List Agent} (hs : s.sched = a :: q) (h : step s = .next t) :
    t.sched = q := by
  simp only [step, State.nextAgent_of_sched hs] at h
  rw [takeTurn_sched h, State.turnUsed_sched, hs, List.tail_cons]

/-! LATENCY. -/

theorem run_succ_eq_next {k : Nat} {s t : State} (h : core.run (k + 1) s = .next t) :
    ∃ u, step s = .next u ∧ core.run k u = .next t := by
  simp only [Host.Core.run, core] at h
  split at h
  · rename_i u hu
    exact ⟨u, hu, h⟩
  · cases h
  · cases h

/-- Settles O57, by induction on the number of steps between acceptance and completion: each leaves the command and what
it computes on as they were (O56), so it leaves what is computed (O59). -/
theorem latencyChangesNoResult : Obligations.LatencyChangesNoResult := by
  intro s t k op hengine hk hturns hrun
  induction k generalizing s with
  | zero => cases hrun; exact ⟨hengine, rfl⟩
  | succ k ih =>
    obtain ⟨u, hstep, hrest⟩ := run_succ_eq_next hrun
    obtain ⟨a, q, hsched⟩ := List.exists_cons_of_length_pos (Nat.zero_lt_of_lt hk)
    have hsched' : u.sched = q := step_sched hsched hstep
    simp only [hsched, List.take_succ_cons, List.forall_mem_cons, List.length_cons] at hturns hk
    obtain ⟨hturn, hturns⟩ := hturns
    have busy : s.busy = true := by simp [State.busy, hengine]
    have frozen : s.FrozenAs u :=
      busyFreezesTheOperands s u busy hstep (by simpa [State.nextAgent_of_sched hsched] using hturn)
    have hengine' : u.engine = some op := frozen.1.trans hengine
    obtain ⟨hop, hexec⟩ := ih u hengine' (by rw [hsched']; omega) (hsched' ▸ hturns) hrest
    exact ⟨hop, hexec.trans (frozen.execute_eq op)⟩

end Sys2Proof.Machine
end

section
/-! SUPPORT. The writes of 40 R137 and R138 as the next states they give, and the immediate commands NOP and FLUSH (40 R135,
R136). -/

namespace Sys2Proof.Machine

/-- Settles O12: both W1C writes by their own lemmas. -/
theorem writeOneToClear : Obligations.WriteOneToClear :=
  fun s w => ⟨hostAccess_write_status w s, hostAccess_write_err w s⟩

/-! Configuration writes. -/

theorem windowOf_of_illegal {w : Word} (h : 1 < (w.extractLsb' 4 2).toNat) : windowOf w = none := by
  unfold windowOf
  split
  · omega
  · omega
  · rfl

theorem windowOf_of_legal {w : Word} (h : (w.extractLsb' 4 2).toNat ≤ 1) :
    windowOf w = some (if w.extractLsb' 4 2 = 0#2 then .hann else .hamming) := by
  obtain hzero | hone := Nat.le_one_iff_eq_zero_or_eq_one.mp h
  · rw [if_pos (BitVec.eq_of_toNat_eq hzero)]
    simp only [windowOf, hzero]
  · rw [if_neg fun hzero => by simp [hzero] at hone]
    simp only [windowOf, hone]

theorem writeCtrl_of_illegal {w : Word}
    (h : w.extractLsb' 0 4 = 0#4 ∨ 12 < (w.extractLsb' 0 4).toNat ∨ 1 < (w.extractLsb' 4 2).toNat) (s : State) :
    writeCtrl w s = s.raise .cfgErr := by
  simp only [writeCtrl]
  split
  · rfl
  · rename_i win hwin
    refine if_pos ?_
    obtain hzero | hlarge | hillegal := h
    · exact .inl (by simp [hzero, Config.log2nMin])
    · exact .inr hlarge
    · simp [windowOf_of_illegal hillegal] at hwin

theorem writeCtrl_of_legal {w : Word} (hleast : 1 ≤ (w.extractLsb' 0 4).toNat)
    (hgreatest : (w.extractLsb' 0 4).toNat ≤ 12) (hwin : (w.extractLsb' 4 2).toNat ≤ 1) (s : State) :
    writeCtrl w s =
      { s with
        fill := if w.extractLsb' 0 4 = s.log2n then s.fill else 0
        log2n := w.extractLsb' 0 4
        win := if w.extractLsb' 4 2 = 0#2 then .hann else .hamming
        autoRun := w.getLsbD 8
        ieDone := w.getLsbD 16
        ieErr := w.getLsbD 17 } := by
  simp only [writeCtrl, windowOf_of_legal hwin]
  exact if_neg (not_or.mpr ⟨Nat.not_lt_of_le hleast, Nat.not_lt_of_le hgreatest⟩)

/-- A configuration write is rejected with BUSY_WRITE while BUSY = 1 (40 R137). -/
theorem hostAccess_write_config_of_busy {s : State} (busy : s.busy = true) {off : BitVec 8}
    (hoff : off ∈ [(0x04 : BitVec 8), 0x08, 0x0C, 0x24, 0x28]) (w : Word) :
    hostAccess (.write off 4 w) s = .next { s with resp := .ok, err := s.err ||| 0x20#7 } := by
  simp only [List.mem_cons, List.not_mem_nil, or_false] at hoff
  obtain rfl | rfl | rfl | rfl | rfl := hoff
  all_goals
    rw [hostAccess_write (by decide)]
    exact congrArg Host.Outcome.next (State.unlessBusyWrite_of_busy (s := { s with resp := .ok }) busy _)

/-- The write of a configuration register that an idle engine takes as `k` (40 R137). -/
theorem hostAccess_write_config_of_idle {s : State} (idle : s.Idle) {off : BitVec 8} {w : Word} {k : State → State}
    (aligned : off.toNat % 4 = 0)
    (hk : registerWrite (regAt off) w { s with resp := .ok } =
      .next (({ s with resp := .ok } : State).unlessBusyWrite k)) :
    hostAccess (.write off 4 w) s = .next (k { s with resp := .ok }) := by
  rw [hostAccess_write aligned, hk]
  exact congrArg Host.Outcome.next (State.unlessBusyWrite_of_idle (s := { s with resp := .ok }) idle k)

/-- Settles O13: busy, every register's write is rejected alike; idle, each is its field's write or its CFG_ERR. -/
theorem configurationWrites : Obligations.ConfigurationWrites := by
  intro s w
  refine ⟨fun busy off hoff => hostAccess_write_config_of_busy busy hoff w, fun idle => ?_⟩
  have ctrl : hostAccess (.write 0x04 4 w) s = .next (writeCtrl w { s with resp := .ok }) :=
    hostAccess_write_config_of_idle idle (by decide) rfl
  have srate : hostAccess (.write 0x08 4 w) s = .next (writeSrate w { s with resp := .ok }) :=
    hostAccess_write_config_of_idle idle (by decide) rfl
  refine ⟨fun illegal => ?_, fun hleast hgreatest hwin => ?_, fun hzero => ?_, fun hnonzero => ?_,
    hostAccess_write_config_of_idle (off := 0x0C) idle (by decide) rfl,
    hostAccess_write_config_of_idle (off := 0x24) idle (by decide) rfl,
    hostAccess_write_config_of_idle (off := 0x28) idle (by decide) rfl⟩
  · rw [ctrl, writeCtrl_of_illegal illegal]
    rfl
  · rw [ctrl, writeCtrl_of_legal hleast hgreatest hwin]
  · rw [srate, writeSrate, if_pos hzero]
    rfl
  · rw [srate, writeSrate, if_neg hnonzero]

/-! NOP and FLUSH. -/

/-- A word other than 0 whose opcode is 0 has a reserved bit set (30 R101). -/
theorem reserved_ne_zero {w : Word} (opcode : w.extractLsb' 0 8 = 0#8) (h : w ≠ 0) : w.extractLsb' 8 24 ≠ 0#24 := by
  intro reserved
  have hw : w.extractLsb' 8 24 ++ w.extractLsb' 0 8 = w := BitVec.extractLsb'_append_extractLsb'
  exact h (by rw [← hw, reserved, opcode]; rfl)

/-- Settles O15: a word of opcode 0 is NOP's, or illegal by its reserved bits. -/
theorem nopChangesNothing : Obligations.NopChangesNothing :=
  ⟨rfl, fun _ => rfl, fun s _ opcode h => hostAccess_write_cmd_of_illegal (.inl (reserved_ne_zero opcode h)) s⟩

/-- N is at least 1 (10 R23). -/
theorem State.frameSize_pos (s : State) : 0 < s.frameSize := Nat.two_pow_pos _

/-- Settles O16: the two cases of the busy test; an empty frame is not full, for N is at least 1. -/
theorem flushEmptiesTheFrame : Obligations.FlushEmptiesTheFrame := by
  refine ⟨rfl, fun s => ⟨fun idle => ⟨?_, ?_, ?_⟩, fun busy => ?_⟩⟩
  · exact congrArg Host.Outcome.next (State.unlessBusy_of_idle idle _)
  · exact decide_eq_false s.frameSize_pos.ne
  · exact State.sReady_iff.mpr ⟨idle, s.frameSize_pos⟩
  · exact congrArg Host.Outcome.next (State.unlessBusy_of_busy busy _)

end Sys2Proof.Machine
end

section
/-! SUPPORT. The three sample pushes (40 R139 to R143): what a block with room becomes, what is dropped and what is held, and
the frame that a list of pushes leaves. -/

namespace Sys2Proof.Machine

/-! One push. -/

/-- An idle block with room after it has taken a sample: the sample stored and counted, and RUN started when that filled
the frame and AUTO_RUN = 1 (40 R142). `State.push_of_room` says that it is what a push makes of the block. -/
def State.pushed (v : Sample) (s : State) : State :=
  { s with
    fb := FrameBuffer.write s.fb s.fill v
    fill := s.fill + 1
    engine := if s.fill + 1 = s.frameSize ∧ s.autoRun = true then some .run else none
    done := if s.fill + 1 = s.frameSize ∧ s.autoRun = true then false else s.done }

theorem State.store_autoStart_eq {s : State} (v : Sample) (idle : s.Idle) : (s.store v).autoStart = s.pushed v := by
  have hengine : s.engine = none := idle
  rw [State.autoStart_eq, State.pushed]
  by_cases fills : s.fill + 1 = s.frameSize ∧ s.autoRun = true
  · rw [if_pos fills, if_pos fills]
    exact if_pos fills
  · rw [if_neg fills, if_neg fills, ← hengine]
    exact if_neg fills

theorem State.push_of_room {s : State} (v : Sample) (hs : s.Inv) (idle : s.Idle) (room : s.fill < s.frameSize) :
    s.push v = .next (s.pushed v) :=
  State.push_eq_next.mpr ⟨room.trans_le hs.frameSize_le, (State.store_autoStart_eq v idle).symm⟩

theorem State.busy_of_idle {s : State} (idle : s.Idle) : s.busy = false := by
  simpa [State.busy] using idle

theorem State.regPush_of_room {s : State} (v : Sample) (hs : s.Inv) (idle : s.Idle) (room : s.fill < s.frameSize) :
    s.regPush v = .next (s.pushed v) := by
  rw [State.regPush, State.busy_of_idle idle, State.full, decide_eq_false room.ne]
  exact State.push_of_room v hs idle room

theorem State.regPush_of_dropped {s : State} (v : Sample) (h : s.busy = true ∨ s.fill = s.frameSize) :
    s.regPush v = .next (s.raise .overflow) :=
  if_pos (by simpa [State.full] using h)

theorem State.raise_overflow (s : State) : s.raise .overflow = { s with err := s.err ||| 0x10#7 } := rfl

theorem State.pushed_inv {s : State} (v : Sample) (hs : s.Inv) (idle : s.Idle) (room : s.fill < s.frameSize) :
    (s.pushed v).Inv :=
  (State.push_changes idle room.ne (State.push_of_room v hs idle room)).keeps_inv hs

/-- Settles O17: the two cases of a push from the host. -/
theorem samplePushStoresOrDrops : Obligations.SamplePushStoresOrDrops := by
  intro s v g hs
  refine ⟨rfl, fun dropped => State.regPush_of_dropped v dropped, fun idle notFull => ?_⟩
  have room : s.fill < s.frameSize := Nat.lt_of_le_of_ne hs.fill_le notFull
  obtain ⟨-, -, -, ⟨hwf, -⟩, -⟩ := State.pushed_inv v hs idle room
  exact ⟨_, State.regPush_of_room v hs idle room, hwf, FrameBuffer.read_write s.fb s.fill v⟩

/-! Two pushes in one step. -/

/-- The second push meets what the first has left (40 R140). -/
theorem exec_samplePush2_of_room {s : State} (a b : Sample) (hs : s.Inv) (idle : s.Idle) (room : s.fill < s.frameSize) :
    exec (.samplePush2 a b) s = (s.pushed a).regPush b := by
  rw [exec, execSamplePush2, State.regPush_of_room a hs idle room, andThen_next]

theorem exec_samplePush2_of_dropped {s : State} (a b : Sample) (h : s.busy = true ∨ s.fill = s.frameSize) :
    exec (.samplePush2 a b) s = .next { s with err := s.err ||| 0x10#7 } := by
  rw [exec, execSamplePush2, State.regPush_of_dropped a h, andThen_next,
    State.regPush_of_dropped (s := s.raise .overflow) b h]
  simp [State.raise, ErrBit.mask, ErrBit.index, BitVec.or_assoc]

/-- Settles O18: the first push is dropped and then so is the second, or it fills the frame and the second is dropped, or
it leaves room for the second. -/
theorem samplePush2PushesInOrder : Obligations.SamplePush2PushesInOrder := by
  intro s a b hs
  refine ⟨rfl, exec_samplePush2_of_dropped a b, fun idle fills => ?_, fun idle room => ?_⟩
  · refine ⟨_, ?_, FrameBuffer.read_write s.fb s.fill a⟩
    rw [exec_samplePush2_of_room a b hs idle (by omega), State.regPush_of_dropped b (.inr fills), State.raise_overflow]
    simp [State.pushed, fills]
  · have room1 : s.fill < s.frameSize := by omega
    have notFilled : ¬(s.fill + 1 = s.frameSize ∧ s.autoRun = true) := fun h => room.ne h.1
    have idle1 : (s.pushed a).Idle := if_neg notFilled
    have done1 : (s.pushed a).done = s.done := if_neg notFilled
    refine ⟨(s.pushed a).fb.write (s.fill + 1) b, ?_, fun i => ?_⟩
    · rw [exec_samplePush2_of_room a b hs idle room1,
        State.regPush_of_room b (State.pushed_inv a hs idle room1) idle1 room]
      rw [State.pushed, done1]
      rfl
    · rw [FrameBuffer.read_write, State.pushed, FrameBuffer.read_write]
      grind

/-! The stream port. -/

theorem exec_streamPush_of_room {s : State} (d : Sample) (hs : s.Inv) (idle : s.Idle) (room : s.fill < s.frameSize) :
    exec (.streamPush d) s = .next (s.pushed d) := by
  rw [exec, execStreamPush, if_pos (State.sReady_iff.mpr ⟨idle, room⟩), State.push_of_room d hs idle room]

theorem exec_streamPush_of_not_ready {s : State} (d : Sample) (h : s.busy = true ∨ s.frameSize ≤ s.fill) :
    exec (.streamPush d) s = .next { s with streamQ := d :: s.streamQ } := by
  refine if_neg fun ready => ?_
  obtain ⟨idle, room⟩ := State.sReady_iff.mp ready
  obtain busy | full := h
  · exact State.not_idle_of_busy busy idle
  · exact Nat.not_le_of_lt room full

/-- Settles O19: s_ready decides between a push and an offer put back where it was. -/
theorem streamPushStoresOrHolds : Obligations.StreamPushStoresOrHolds := by
  refine ⟨fun s => State.sReady_iff, fun s d hs => ⟨fun idle room => ?_, fun held => ?_⟩,
    fun s turn waiting held => ?_⟩
  · exact ⟨_, exec_streamPush_of_room d hs idle room, FrameBuffer.read_write s.fb s.fill d⟩
  · exact exec_streamPush_of_not_ready d (held.imp_right Eq.ge)
  · obtain ⟨d, rest, hq⟩ := List.exists_cons_of_ne_nil waiting
    rw [step_of_stream_next turn hq, issue_of_decode (i := .streamPush d) rfl,
      exec_streamPush_of_not_ready d (s := { s with streamQ := rest, sched := s.sched.tail }) held, ← hq]

/-! A list of pushes. -/

/-- RUN is in flight exactly when the frame is full and AUTO_RUN = 1: what a block that only takes pushes keeps. -/
def State.RunsWhenFull (s : State) : Prop :=
  s.engine = if s.fill = s.frameSize ∧ s.autoRun = true then some .run else none

/-- `t` is `s` with the samples `xs` pushed: they stand from the old FILL on in push order, every other entry is as it was,
and RUN has started exactly when they filled the frame and AUTO_RUN = 1. -/
structure State.TakesInOrder (s : State) (xs : List Sample) (t : State) : Prop where
  fill : t.fill = s.fill + xs.length
  taken : ∀ (i : Nat) (x : Sample), xs[i]? = some x → FrameBuffer.read t.fb (s.fill + i) = some x
  before : ∀ i, i < s.fill → FrameBuffer.read t.fb i = FrameBuffer.read s.fb i
  after : ∀ i, s.fill + xs.length ≤ i → FrameBuffer.read t.fb i = FrameBuffer.read s.fb i
  engine : t.engine = if s.fill + xs.length = s.frameSize ∧ s.autoRun = true then some .run else none
  err : t.err = s.err
  res : t.res = s.res

theorem State.takesInOrder_nil {s : State} (h : s.RunsWhenFull) : s.TakesInOrder [] s where
  fill := rfl
  taken := by simp
  before _ _ := rfl
  after _ _ := rfl
  engine := h
  err := rfl
  res := rfl

theorem State.takesInOrder_cons {s t : State} {x : Sample} {xs : List Sample}
    (h : (s.pushed x).TakesInOrder xs t) : s.TakesInOrder (x :: xs) t := by
  have hlength : s.fill + (x :: xs).length = s.fill + 1 + xs.length := by rw [List.length_cons]; omega
  have hread (i : Nat) : FrameBuffer.read (s.pushed x).fb i = if i = s.fill then some x else FrameBuffer.read s.fb i :=
    FrameBuffer.read_write s.fb s.fill x i
  constructor
  case fill => rw [hlength]; exact h.fill
  case taken =>
    intro i y hy
    cases i with
    | zero =>
      cases hy
      rw [Nat.add_zero, h.before s.fill (Nat.lt_succ_self _), hread, if_pos rfl]
    | succ i =>
      rw [← Nat.add_assoc, Nat.add_right_comm]
      exact h.taken i y hy
  case before =>
    intro i hi
    rw [h.before i (Nat.lt_succ_of_lt hi), hread, if_neg hi.ne]
  case after =>
    intro i hi
    rw [hlength] at hi
    rw [h.after i hi, hread, if_neg (by omega)]
  case engine => rw [hlength]; exact h.engine
  case err => exact h.err
  case res => exact h.res

theorem execAll_samplePush {s : State} (xs : List Sample) (hs : s.Inv) (hengine : s.RunsWhenFull)
    (hroom : s.fill + xs.length ≤ s.frameSize) :
    ∃ t, execAll (xs.map fun x => .samplePush x 0) s = .next t ∧ s.TakesInOrder xs t := by
  induction xs generalizing s with
  | nil => exact ⟨s, rfl, State.takesInOrder_nil hengine⟩
  | cons x xs ih =>
    rw [List.length_cons] at hroom
    have room : s.fill < s.frameSize := by omega
    have idle : s.Idle := hengine.trans (if_neg fun h => room.ne h.1)
    have hroom' : (s.pushed x).fill + xs.length ≤ s.frameSize := by
      change s.fill + 1 + xs.length ≤ _
      omega
    obtain ⟨t, hrest, htaken⟩ := ih (State.pushed_inv x hs idle room) rfl hroom'
    refine ⟨t, ?_, State.takesInOrder_cons htaken⟩
    rw [List.map_cons, execAll, exec, execSamplePush, State.regPush_of_room x hs idle room, andThen_next]
    exact hrest

/-- Settles O20, by induction on the list of samples (`execAll_samplePush`), from an empty frame: N is at least 1, so an
idle block with FILL = 0 is one that runs when full. -/
theorem frameKeepsPushOrder : Obligations.FrameKeepsPushOrder := by
  intro s xs hs idle hempty hlength
  have hengine : s.RunsWhenFull := idle.trans (if_neg fun h => s.frameSize_pos.ne (hempty.symm.trans h.1)).symm
  obtain ⟨t, hrun, h⟩ := execAll_samplePush xs hs hengine (by omega)
  have hcount : s.fill + xs.length = xs.length := by omega
  refine ⟨t, hrun, hcount ▸ h.fill, fun i x hx => ?_, fun i hi => h.after i (by omega), hcount ▸ h.engine,
    h.err, h.res⟩
  simpa [hempty] using h.taken i x hx

end Sys2Proof.Machine
end

section
/-! SUPPORT. The volume gate (41 R160 to R162): the energy as a sum over the frame, and the thresholds the RMS reaches. -/

namespace Sys2Proof.Machine

/-! The energy. -/

theorem frameOf_succ (n : Nat) (v : Nat → Sample) : frameOf (n + 1) v = frameOf n v ++ [sampleValue (v n)] := by
  simp [frameOf, List.range_succ]

theorem energy_append (xs ys : List Int) : energy (xs ++ ys) = energy xs + energy ys := by
  simp [energy]

theorem energy_singleton (x : Int) : (energy [x] : Int) = x * x := by
  simp [energy, mul_self_nonneg]

theorem energy_frameOf (n : Nat) (v : Nat → Sample) :
    (energy (frameOf n v) : Int) = ∑ i ∈ Finset.range n, (v i).toInt * (v i).toInt := by
  induction n with
  | zero => rfl
  | succ n ih =>
    rw [frameOf_succ, energy_append, Nat.cast_add, ih, energy_singleton, Finset.sum_range_succ]
    rfl

theorem energy_frameOf_le (n : Nat) (v : Nat → Sample) : energy (frameOf n v) ≤ n * 2 ^ 30 := by
  have hlength : (frameOf n v).length = n := by simp [frameOf]
  have hle := energy_le (xs := frameOf n v) fun x hx => by
    obtain ⟨i, -, rfl⟩ := List.mem_map.mp hx
    exact ⟨v i, rfl⟩
  rwa [hlength] at hle

/-- Settles O26, by induction on the number of samples (`energy_frameOf`) and the bound of one square
(`sampleValue_sq_le`). -/
theorem energyIsExactAndFits : Obligations.EnergyIsExactAndFits :=
  fun n v hn => ⟨energy_frameOf n v, energy_frameOf_le n v, by omega⟩

/-! The gate. -/

theorem gateOpen_iff {e t n : Nat} : gateOpen e t n = true ↔ t * t * n ≤ e := decide_eq_true_iff

theorem gateClosed_iff {e t n : Nat} : gateOpen e t n = false ↔ e < t * t * n := by
  rw [← Bool.not_eq_true, gateOpen_iff, not_le]

theorem rmsOf_eq_sqrt (e n : Nat) : rmsOf e n = Nat.sqrt (e / n) := isqrt_eq_sqrt _

/-- The RMS register reaches a threshold exactly when the integer test of the gate passes (41 R162). -/
theorem le_rmsOf_iff {e t n : Nat} (hn : 0 < n) : t ≤ rmsOf e n ↔ t * t * n ≤ e := by
  rw [rmsOf_eq_sqrt, Nat.le_sqrt, Nat.le_div_iff_mul_le hn]

/-- The real RMS reaches a threshold exactly when the integer test of the gate passes (41 R162). -/
theorem le_sqrt_mean_iff {e t n : Nat} (hn : 0 < n) : (t : ℝ) ≤ Real.sqrt ((e : ℝ) / n) ↔ t * t * n ≤ e := by
  have hn' : (0 : ℝ) < n := by exact_mod_cast hn
  rw [Real.le_sqrt (by positivity) (by positivity), le_div_iff₀ hn', sq]
  norm_cast

/-- The RMS register is the real RMS rounded down: it reaches the register's value and not the next (41 R161). -/
theorem rmsOf_eq_floor {e n : Nat} (hn : 0 < n) : (rmsOf e n : Int) = ⌊Real.sqrt ((e : ℝ) / n)⌋ := by
  have reached : ((rmsOf e n : Nat) : ℝ) ≤ Real.sqrt ((e : ℝ) / n) :=
    (le_sqrt_mean_iff hn).mpr ((le_rmsOf_iff hn).mp le_rfl)
  have notNext : ¬((rmsOf e n + 1 : Nat) : ℝ) ≤ Real.sqrt ((e : ℝ) / n) := fun h =>
    Nat.not_succ_le_self _ ((le_rmsOf_iff hn).mpr ((le_sqrt_mean_iff hn).mp h))
  rw [eq_comm, Int.floor_eq_iff]
  exact ⟨by exact_mod_cast reached, by exact_mod_cast not_le.mp notNext⟩

/-- Settles O27: the integer test, the RMS register and the real RMS reach the same thresholds (`le_rmsOf_iff`,
`le_sqrt_mean_iff`). -/
theorem gateTestIsExact : Obligations.GateTestIsExact := by
  intro e t n hn
  refine ⟨rmsOf_eq_sqrt e n, rmsOf_eq_floor hn, rmsOf_le, gateOpen_iff, ?_, ?_⟩
  · rw [gateClosed_iff, ← not_le, ← not_le, le_sqrt_mean_iff hn]
  · rw [gateClosed_iff, ← not_le, ← not_le, le_rmsOf_iff hn]

end Sys2Proof.Machine
end

section
/-! SUPPORT. The two halves of an engine command (40 R130 to R133): the CMD write of one that wants a full frame, and the
engine's turn after acceptance; and the energy, the RMS and the decision of a held frame. -/

namespace Sys2Proof.Machine

/-! The CMD write. -/

/-- The commands that want a full frame (40 R130). -/
def frameCommands : List (Instr × EngineCmd) := [(.run, .run), (.gate, .gate), (.spectrum, .spectrum)]

/-- The CMD write of a command that wants a full frame: BUSY_CMD, NOT_FULL or acceptance. -/
theorem exec_frameCommand {i : Instr} {op : EngineCmd} (h : (i, op) ∈ frameCommands) (s : State) :
    exec i s = .next
      (if s.busy = true then s.raise .busyCmd
      else if s.fill ≠ s.frameSize then s.raise .notFull
      else s.accept op) := by
  rw [← State.acceptOnFrame_eq]
  simp only [frameCommands, List.mem_cons, Prod.mk.injEq, List.not_mem_nil, or_false] at h
  obtain ⟨rfl, rfl⟩ | ⟨rfl, rfl⟩ | ⟨rfl, rfl⟩ := h <;> rfl

theorem exec_frameCommand_rejects {i : Instr} {op : EngineCmd} (h : (i, op) ∈ frameCommands) (s : State) :
    (s.busy = true → exec i s = .next { s with err := s.err ||| 0x02#7 }) ∧
    (s.Idle → s.fill ≠ s.frameSize → exec i s = .next { s with err := s.err ||| 0x04#7 }) := by
  rw [exec_frameCommand h]
  refine ⟨fun busy => ?_, fun idle notFull => ?_⟩
  · rw [if_pos busy]
    rfl
  · rw [if_neg (by simp [State.busy_of_idle idle]), if_pos notFull]
    rfl

theorem exec_frameCommand_accepts {i : Instr} {op : EngineCmd} (h : (i, op) ∈ frameCommands) {s : State}
    (idle : s.Idle) (full : s.fill = s.frameSize) :
    exec i s = .next { s with engine := some op, done := false } := by
  rw [exec_frameCommand h, if_neg (by simp [State.busy_of_idle idle]), if_neg (not_not_intro full)]
  rfl

/-! The engine's turn. -/

/-- Acceptance changes nothing a command computes on, so the engine's turn publishes what the command computes on the
state before it (40 R133). -/
theorem step_of_accepted {s : State} {op : EngineCmd} {r : Results} (hr : execute op s = .ok r) (q : List Agent) :
    step { s with engine := some op, done := false, sched := .engine :: q } =
      .next { s with
        engine := none, done := true, fill := if op = .run then 0 else s.fill
        res := { r with srcOp := some op }, sched := q } := by
  have accepted : execute op { s with engine := some op, done := false, sched := q } = .ok r :=
    (resultsDependOnFrameAndConfiguration op _ s rfl rfl rfl rfl rfl rfl fun _ _ => rfl).trans hr
  exact complete_of_ok rfl accepted

/-! The measures of a held frame. -/

/-- The energy of a frame fits ENERGY (41 R160). -/
theorem toNat_energy {s : State} (hexp : s.ExponentLegal) (v : Nat → Sample) :
    (BitVec.ofNat 43 (energy (frameOf s.frameSize v))).toNat = energy (frameOf s.frameSize v) := by
  have hsize : s.frameSize ≤ 2 ^ 12 := Nat.pow_le_pow_right (by decide) hexp.2
  have hle := energy_frameOf_le s.frameSize v
  exact Nat.mod_eq_of_lt (by omega)

theorem toNat_energy_eq_sum {s : State} (hexp : s.ExponentLegal) (v : Nat → Sample) :
    ((BitVec.ofNat 43 (energy (frameOf s.frameSize v))).toNat : Int) =
      ∑ i ∈ Finset.range s.frameSize, (v i).toInt * (v i).toInt := by
  rw [toNat_energy hexp, energy_frameOf]

/-- The RMS of a frame fits RMS (41 R161). -/
theorem toNat_rms {s : State} (hexp : s.ExponentLegal) (v : Nat → Sample) :
    (BitVec.ofNat 16 (rmsOf (energy (frameOf s.frameSize v)) s.frameSize)).toNat =
      Nat.sqrt ((BitVec.ofNat 43 (energy (frameOf s.frameSize v))).toNat / s.frameSize) := by
  have hle := rmsOf_le (energy_frameOf_le s.frameSize v)
  rw [toNat_energy hexp, ← rmsOf_eq_sqrt]
  exact Nat.mod_eq_of_lt (by omega)

/-- The gate's decision as a test of the ENERGY register (41 R162). -/
theorem gateOpen_iff_le_energy {s : State} (hexp : s.ExponentLegal) (v : Nat → Sample) :
    gateOpen (energy (frameOf s.frameSize v)) s.threshold s.frameSize = true ↔
      s.thresh.toNat * s.thresh.toNat * s.frameSize ≤
        (BitVec.ofNat 43 (energy (frameOf s.frameSize v))).toNat := by
  rw [toNat_energy hexp]
  exact gateOpen_iff

/-! GATE. -/

theorem gateResults_of_holds {s : State} {v : Nat → Sample} (held : s.HoldsFrame v) :
    gateResults s = .ok { Results.zero with
      code := if gateOpen (energy (frameOf s.frameSize v)) s.threshold s.frameSize then .gatePass else .belowThreshold
      energy := BitVec.ofNat 43 (energy (frameOf s.frameSize v))
      rms := BitVec.ofNat 16 (rmsOf (energy (frameOf s.frameSize v)) s.frameSize) } := by
  rw [gateResults, s.frame_of_holds v held]

/-- Settles O21: the three cases of the CMD write, and the engine's turn with the measures of the held frame. -/
theorem gateMeasuresTheHeldFrame : Obligations.GateMeasuresTheHeldFrame := by
  have command : (Instr.gate, EngineCmd.gate) ∈ frameCommands := by decide
  refine ⟨rfl, exec_frameCommand_rejects command, fun s v hexp idle held => ?_⟩
  refine ⟨exec_frameCommand_accepts command idle held.1, _, step_of_accepted (gateResults_of_holds held), rfl,
    toNat_energy_eq_sum hexp v, toNat_rms hexp v, ?_⟩
  simp only [gateOpen_iff_le_energy hexp]

end Sys2Proof.Machine
end

section
/-! SUPPORT. RUN (41 R165, R166): its start by the push that fills the frame, the note's registers for any frequency, and
its three outcomes. -/

namespace Sys2Proof.Machine

/-! The start by a push. -/

/-- A push that fills the frame starts RUN when AUTO_RUN = 1 (40 R142). -/
theorem State.pushed_starts_run {s : State} (v : Sample) (autoRun : s.autoRun = true)
    (fills : s.fill + 1 = s.frameSize) :
    (s.pushed v).engine = some .run ∧ (s.pushed v).done = false ∧ (s.pushed v).fill = (s.pushed v).frameSize :=
  ⟨if_pos ⟨fills, autoRun⟩, if_pos ⟨fills, autoRun⟩, fills⟩

/-- On all three push paths; SAMPLE_PUSH2's second sample is dropped, which sets an error bit only (40 R139 to R141). -/
theorem exec_push_starts_run {s : State} {i : Instr} {d g : BitVec 16} (hs : s.Inv) (idle : s.Idle)
    (autoRun : s.autoRun = true) (fills : s.fill + 1 = s.frameSize)
    (hi : i ∈ [Instr.samplePush d g, .samplePush2 d g, .streamPush d]) :
    ∃ t : State, exec i s = .next t ∧ t.engine = some .run ∧ t.done = false ∧ t.fill = t.frameSize := by
  have room : s.fill < s.frameSize := by omega
  have started := State.pushed_starts_run d autoRun fills
  simp only [List.mem_cons, List.not_mem_nil, or_false] at hi
  obtain rfl | rfl | rfl := hi
  · exact ⟨_, State.regPush_of_room d hs idle room, started⟩
  · refine ⟨(s.pushed d).raise .overflow, ?_, started⟩
    rw [exec_samplePush2_of_room d g hs idle room, State.regPush_of_dropped g (.inr fills)]
  · exact ⟨_, exec_streamPush_of_room d hs idle room, started⟩

/-! The note. -/

/-- Every number of a note fits its register, for any value of FREQ, 0 among them (43 R238, R241, R242). -/
theorem noteValues_fit {v : Nat} (hlt : v < 2 ^ 31) :
    (-200 ≤ keyOf v ∧ keyOf v ≤ 172) ∧ (0 ≤ canonicalOf v ∧ canonicalOf v < 2 ^ 32) ∧
      (-2 ^ 31 ≤ deviationOf v ∧ deviationOf v < 2 ^ 31) := by
  obtain rfl | hpos := Nat.eq_zero_or_pos v
  · decide
  · have hnf := canonicalOf_bounds hpos hlt
    exact ⟨keyOf_bounds hpos hlt, by omega, deviationOf_bounds hpos hlt⟩

theorem Results.withNote_freq_toNat (r : Results) {v : Nat} (hlt : v < 2 ^ 31) : (r.withNote v).freq.toNat = v :=
  Nat.mod_eq_of_lt hlt

/-- The note's registers hold the note mapper's values of FREQ (41 R165, 43 R244). -/
theorem Results.withNote_registers (r : Results) {v : Nat} (hlt : v < 2 ^ 31) :
    (r.withNote v).noteKey.toInt = keyOf (r.withNote v).freq.toNat ∧
    (r.withNote v).notePc.toNat = pitchClassOf (r.withNote v).freq.toNat ∧
    (r.withNote v).noteOct.toInt = octaveOf (r.withNote v).freq.toNat ∧
    (r.withNote v).noteName = nameOf (r.withNote v).freq.toNat ∧
    ((r.withNote v).noteFreq.toNat : Int) = canonicalOf (r.withNote v).freq.toNat ∧
    (r.withNote v).noteDev.toInt = deviationOf (r.withNote v).freq.toNat := by
  rw [Results.withNote_freq_toNat r hlt]
  obtain ⟨⟨hkey, hkey'⟩, ⟨hnf, hnf'⟩, hdev, hdev'⟩ := noteValues_fit hlt
  have octKey : octaveOf v = keyOf v / 12 := rfl
  refine ⟨toInt_ofInt_of_bounds (by omega) (by omega), ?_, toInt_ofInt_of_bounds (by omega) (by omega), rfl, ?_,
    toInt_ofInt_of_bounds hdev hdev'⟩
  · exact Nat.mod_eq_of_lt ((pitchClassOf_lt v).trans (by decide))
  · simp only [Results.withNote, BitVec.toNat_ofInt]
    omega

/-! The peak of a held frame. -/

/-- The peak's bin fits PEAK_BIN (42 R202). -/
theorem toNat_peakBin {s : State} {frame : List Int} {k mag : Nat} (hexp : s.ExponentLegal)
    (peak : spectralPeak s.win s.lexp frame = (k, mag)) : (BitVec.ofNat 12 k).toNat = k := by
  have hbin := spectralPeak_fst_lt s.win hexp.1 frame
  have hhalf : 2 ^ (s.lexp - 1) ≤ 2 ^ 11 := Nat.pow_le_pow_right (by decide) (Nat.sub_le_sub_right hexp.2 1)
  rw [peak] at hbin
  exact Nat.mod_eq_of_lt (by omega)

/-- The peak's frequency fits FREQ (42 R204). -/
theorem peakFreq_lt {s : State} {frame : List Int} {k mag : Nat} (hexp : s.ExponentLegal)
    (peak : spectralPeak s.win s.lexp frame = (k, mag)) : binFreq k s.rateHz s.lexp < 2 ^ 31 := by
  have hbin := spectralPeak_fst_lt s.win hexp.1 frame
  rw [peak] at hbin
  exact binFreq_lt hexp.1 hexp.2 s.rate.isLt hbin

/-! The three outcomes. -/

section

variable {s : State} {v : Nat → Sample} {k mag : Nat}

theorem runResults_of_closed (held : s.HoldsFrame v)
    (closed : ¬gateOpen (energy (frameOf s.frameSize v)) s.threshold s.frameSize = true) :
    runResults s = .ok { Results.zero with
      code := .belowThreshold
      energy := BitVec.ofNat 43 (energy (frameOf s.frameSize v))
      rms := BitVec.ofNat 16 (rmsOf (energy (frameOf s.frameSize v)) s.frameSize) } := by
  rw [runResults, s.frame_of_holds v held]
  exact if_neg closed

/-- What a RUN with an open gate has gathered once its peak is found (41 R165); the `runResults` lemmas below say so. -/
def State.gathered (s : State) (v : Nat → Sample) (k mag : Nat) : Results :=
  { Results.zero with
    energy := BitVec.ofNat 43 (energy (frameOf s.frameSize v))
    rms := BitVec.ofNat 16 (rmsOf (energy (frameOf s.frameSize v)) s.frameSize)
    peakBin := BitVec.ofNat 12 k
    peakMag := BitVec.ofNat 44 mag }

theorem runResults_of_open (held : s.HoldsFrame v)
    (isOpen : gateOpen (energy (frameOf s.frameSize v)) s.threshold s.frameSize = true)
    (peak : spectralPeak s.win s.lexp (frameOf s.frameSize v) = (k, mag)) :
    runResults s = .ok (if k = 0 then { s.gathered v k mag with code := .dcPeak }
      else (s.gathered v k mag).withNote (binFreq k s.rateHz s.lexp)) := by
  rw [runResults, s.frame_of_holds v held]
  simp only [isOpen, peak, if_true]
  rfl

/-- A peak at bin 0 has no note: FREQ and every NOTE register stay 0 (41 R166). -/
theorem runResults_of_dcPeak (held : s.HoldsFrame v)
    (isOpen : gateOpen (energy (frameOf s.frameSize v)) s.threshold s.frameSize = true)
    (peak : spectralPeak s.win s.lexp (frameOf s.frameSize v) = (0, mag)) :
    runResults s = .ok { s.gathered v 0 mag with code := .dcPeak } :=
  runResults_of_open held isOpen peak

theorem runResults_of_note (held : s.HoldsFrame v)
    (isOpen : gateOpen (energy (frameOf s.frameSize v)) s.threshold s.frameSize = true)
    (peak : spectralPeak s.win s.lexp (frameOf s.frameSize v) = (k, mag)) (nonzero : k ≠ 0) :
    runResults s = .ok ((s.gathered v k mag).withNote (binFreq k s.rateHz s.lexp)) :=
  (runResults_of_open held isOpen peak).trans (congrArg Except.ok (if_neg nonzero))

end

/-- Settles O22: the three cases of the CMD write, the start by each push, and the engine's turn in each outcome. -/
theorem runProcessesTheHeldFrame : Obligations.RunProcessesTheHeldFrame := by
  have command : (Instr.run, EngineCmd.run) ∈ frameCommands := by decide
  refine ⟨rfl, exec_frameCommand_rejects command,
    fun s i d g hs idle autoRun fills hi => exec_push_starts_run hs idle autoRun fills hi,
    fun s v hexp idle held => ⟨exec_frameCommand_accepts command idle held.1, ?_⟩⟩
  have completes {r : Results} (hr : runResults s = .ok r) := step_of_accepted (op := .run) hr
  have decision := gateOpen_iff_le_energy hexp v
  by_cases isOpen : gateOpen (energy (frameOf s.frameSize v)) s.threshold s.frameSize = true
  case neg =>
    exact ⟨_, completes (runResults_of_closed held isOpen), toNat_energy_eq_sum hexp v, toNat_rms hexp v,
      fun _ => rfl, fun above => absurd (decision.mpr above) isOpen⟩
  have notBelow := Nat.not_lt_of_le (decision.mp isOpen)
  rcases peak : spectralPeak s.win s.lexp (frameOf s.frameSize v) with ⟨k, mag⟩
  by_cases dc : k = 0
  · subst dc
    refine ⟨_, completes (runResults_of_dcPeak held isOpen peak), toNat_energy_eq_sum hexp v, toNat_rms hexp v,
      fun below => absurd below notBelow, fun _ k' mag' peak' => ?_⟩
    obtain ⟨rfl, rfl⟩ := Prod.mk.inj (peak'.trans peak)
    exact ⟨fun _ => rfl, fun nonzero => absurd rfl nonzero⟩
  · refine ⟨_, completes (runResults_of_note held isOpen peak dc), toNat_energy_eq_sum hexp v, toNat_rms hexp v,
      fun below => absurd below notBelow, fun _ k' mag' peak' => ?_⟩
    obtain ⟨rfl, rfl⟩ := Prod.mk.inj (peak'.trans peak)
    have hlt := peakFreq_lt hexp peak
    have freq := (s.gathered v k' mag').withNote_freq_toNat hlt
    refine ⟨fun zero => absurd zero dc, fun _ => ⟨rfl, rfl, toNat_peakBin hexp peak, rfl, freq,
      fun rate => (binFreq_pos _ dc (BitVec.toNat_ne.mp rate)).trans_eq freq.symm, ?_⟩⟩
    dsimp only
    exact (s.gathered v k' mag').withNote_registers hlt

end Sys2Proof.Machine
end

section
/-! SUPPORT. The bin frequency (42 R204) and the two commands of the spectral estimator from CMD write to completion
(42 R205, R206). -/

namespace Sys2Proof.Machine

/-! The bin frequency. -/

theorem half_frameSize {l : Nat} (hl : 1 ≤ l) : 2 ^ l / 2 = 2 ^ (l - 1) := Nat.pow_div hl (by decide)

theorem binFreq_strictMono {rate : Nat} (l : Nat) (hrate : 0 < rate) : StrictMono fun k => binFreq k rate l :=
  fun _ _ h => Nat.mul_lt_mul_of_pos_right (Nat.mul_lt_mul_of_pos_right h hrate) (Nat.two_pow_pos _)

/-- N bins of the width of one are SR (42 R204). -/
theorem binFreq_mul_frameSize (k rate : Nat) {l : Nat} (hl : l ≤ 12) : binFreq k rate l * 2 ^ l = k * rate * 4096 := by
  rw [binFreq, Nat.mul_assoc, ← Nat.pow_add, Nat.sub_add_cancel hl]

theorem binFreq_lt_rate_mul {k rate l : Nat} (hl : 1 ≤ l) (hl' : l ≤ 12) (hrate : 0 < rate) (hk : k < 2 ^ (l - 1)) :
    binFreq k rate l < rate * 2 ^ 11 :=
  calc k * rate * 2 ^ (12 - l)
    _ < 2 ^ (l - 1) * rate * 2 ^ (12 - l) :=
      Nat.mul_lt_mul_of_pos_right (Nat.mul_lt_mul_of_pos_right hk hrate) (Nat.two_pow_pos _)
    _ = rate * (2 ^ (l - 1) * 2 ^ (12 - l)) := by rw [Nat.mul_comm (2 ^ (l - 1)), Nat.mul_assoc]
    _ = rate * 2 ^ 11 := by rw [← Nat.pow_add]; congr 2; omega

/-- Settles O37: the formula is the definition, its real value is `binFreq_mul_frameSize` divided by N, and it rises
with k as the product does. -/
theorem binFrequencyIsExact : Obligations.BinFrequencyIsExact := by
  intro l rate k hl hl' hrate hrate' hk
  rw [half_frameSize hl] at hk
  refine ⟨rfl, ?_, binFreq_lt_rate_mul hl hl' hrate hk, by omega, fun k' h => binFreq_strictMono l hrate h⟩
  have hexact : (binFreq k rate l : ℝ) * 2 ^ l = k * rate * 4096 := by exact_mod_cast binFreq_mul_frameSize k rate hl'
  rw [div_eq_div_iff (by norm_num) (by positivity), hexact]

/-! SPECTRUM. -/

theorem spectrumResults_of_holds {s : State} {v : Nat → Sample} {k mag : Nat} (held : s.HoldsFrame v)
    (peak : spectralPeak s.win s.lexp (frameOf s.frameSize v) = (k, mag)) :
    spectrumResults s = .ok { Results.zero with
      code := .spectrumDone
      peakBin := BitVec.ofNat 12 k
      peakMag := BitVec.ofNat 44 mag
      freq := BitVec.ofNat 31 (binFreq k s.rateHz s.lexp) } := by
  rw [spectrumResults, s.frame_of_holds v held]
  simp only [peak]

/-- Settles O23: the three cases of the CMD write, and the engine's turn with the peak of the held frame, whose bin and
frequency fit their registers. -/
theorem spectrumFindsThePeak : Obligations.SpectrumFindsThePeak := by
  have command : (Instr.spectrum, EngineCmd.spectrum) ∈ frameCommands := by decide
  refine ⟨rfl, exec_frameCommand_rejects command,
    fun s v hexp idle held => ⟨exec_frameCommand_accepts command idle held.1, ?_⟩⟩
  rcases peak : spectralPeak s.win s.lexp (frameOf s.frameSize v) with ⟨k, mag⟩
  refine ⟨_, step_of_accepted (op := .spectrum) (spectrumResults_of_holds held peak), rfl, fun k' mag' peak' => ?_⟩
  obtain ⟨rfl, rfl⟩ := Prod.mk.inj (peak'.trans peak)
  exact ⟨toNat_peakBin hexp peak, rfl, Nat.mod_eq_of_lt (peakFreq_lt hexp peak)⟩

/-! BIN2FREQ. -/

/-- The CMD write of BIN2FREQ (42 R205): BUSY_CMD, ARG_ERR or acceptance. -/
theorem exec_bin2freq (s : State) :
    exec .bin2freq s = .next
      (if s.busy = true then s.raise .busyCmd
      else if s.frameSize / 2 ≤ s.mapBin.toNat then s.raise .argErr
      else s.accept .bin2freq) := rfl

/-- The frequency of a legal operand fits FREQ (42 R204). -/
theorem toNat_operandFreq {s : State} (hexp : s.ExponentLegal) (h : s.binOperand < s.frameSize / 2) :
    (BitVec.ofNat 31 (binFreq s.binOperand s.rateHz s.lexp)).toNat = binFreq s.binOperand s.rateHz s.lexp := by
  rw [State.frameSize, half_frameSize hexp.1] at h
  exact Nat.mod_eq_of_lt (binFreq_lt hexp.1 hexp.2 s.rate.isLt h)

/-- Settles O24: the three cases of the CMD write, and the engine's turn with the frequency of the operand. -/
theorem bin2FreqConvertsTheOperand : Obligations.Bin2FreqConvertsTheOperand := by
  intro s hexp
  refine ⟨rfl, fun busy => ?_, fun idle illegal => ?_, fun idle legal => ⟨?_, _, toNat_operandFreq hexp legal, ?_⟩⟩
  · rw [exec_bin2freq, if_pos busy]
    rfl
  · rw [exec_bin2freq, if_neg (by simp [State.busy_of_idle idle]), if_pos illegal]
    rfl
  · rw [exec_bin2freq, if_neg (by simp [State.busy_of_idle idle]), if_neg (Nat.not_le_of_lt legal)]
    rfl
  · exact step_of_accepted (op := .bin2freq) rfl

end Sys2Proof.Machine
end

section
/-! SUPPORT. The twiddle multiply as rounded real arithmetic (42 R198), and the load of the spectrum RAM in bit-reversed
order (42 R194, R196). -/

namespace Sys2Proof.Machine

/-! The twiddle multiply. -/

/-- `RoundShift` is the real quotient rounded, halves going up (00 R10). -/
theorem roundShift_eq_floor (x : Int) (n : Nat) : roundShift x (n + 1) = ⌊((x : ℝ) + 2 ^ n) / 2 ^ (n + 1)⌋ := by
  have h := Int.floor_div_natCast ((x + 2 ^ n : Int) : ℝ) (2 ^ (n + 1))
  rw [Int.floor_intCast] at h
  push_cast at h
  exact h.symm

theorem roundShift_mul_two_pow (x : Int) (n : Nat) : roundShift (x * 2 ^ n) n = x := by
  cases n with
  | zero => exact mul_one x
  | succ n =>
    have hhalf : (2 : Int) ^ n / 2 ^ (n + 1) = 0 := by
      refine Int.ediv_eq_zero_of_lt (by positivity) ?_
      gcongr <;> omega
    rw [roundShift, Int.add_comm, Int.add_mul_ediv_right _ _ (by positivity), hhalf, zero_add]

/-- Settles O31: `roundShift_eq_floor` for each component, and a whole multiple of 2^15 loses nothing. -/
theorem twiddleMultiplyRoundsOnce : Obligations.TwiddleMultiplyRoundsOnce := by
  intro b c s
  refine ⟨roundShift_eq_floor _ 14, roundShift_eq_floor _ 14, ?_⟩
  have whole (x : Int) : roundShift (x * 32768) 15 = x := roundShift_mul_two_pow x 15
  simp [twMul, whole]

/-! The windowed frame. -/

theorem getElem?_frameOf (v : Nat → Sample) {n i : Nat} (h : i < n) : (frameOf n v)[i]? = some (v i).toInt := by
  simp [frameOf, sampleValue, h]

theorem windowed_length (w : Window) {l : Nat} {frame : List Int} (h : frame.length = 2 ^ l) :
    (windowed w l frame).length = 2 ^ l := by
  simp [windowed, h]

theorem getElem?_windowed (w : Window) {l i : Nat} {frame : List Int} {x : Int} (h : frame.length = 2 ^ l)
    (hx : frame[i]? = some x) : (windowed w l frame)[i]? = some (x * windowCoeff w (2 ^ l) i) := by
  have hi : i < 2 ^ l := h ▸ (List.getElem?_eq_some_iff.mp hx).1
  exact List.getElem?_zipWith_eq_some.mpr ⟨x, i, hx, by simp [hi], rfl⟩

/-! Bit reversal (00 R10). -/

theorem bitrev_lt (l n : Nat) : bitrev l n < 2 ^ l := by
  induction l generalizing n with
  | zero => exact Nat.zero_lt_one
  | succ l ih =>
    have hbit : n % 2 * 2 ^ l ≤ 1 * 2 ^ l := Nat.mul_le_mul_right _ (Nat.le_of_lt_succ (Nat.mod_lt n (by decide)))
    have hrest := ih (n / 2)
    rw [bitrev, Nat.pow_succ]
    omega

theorem testBit_bitrev {l i : Nat} (n : Nat) (hi : i < l) : (bitrev l n).testBit i = n.testBit (l - 1 - i) := by
  induction l generalizing n with
  | zero => exact absurd hi (Nat.not_lt_zero i)
  | succ l ih =>
    rw [bitrev, Nat.mul_comm, Nat.testBit_two_pow_mul_add _ (bitrev_lt l _)]
    split
    · rename_i below
      rw [ih _ below, Nat.testBit_div_two]
      congr 1
      omega
    · obtain rfl : i = l := by omega
      simp

theorem bitrev_bitrev {l n : Nat} (h : n < 2 ^ l) : bitrev l (bitrev l n) = n := by
  refine Nat.eq_of_testBit_eq fun i => ?_
  by_cases hi : i < l
  · rw [testBit_bitrev _ hi, testBit_bitrev _ (by omega)]
    congr 1
    omega
  · have hl : 2 ^ l ≤ 2 ^ i := Nat.pow_le_pow_right (by decide) (Nat.le_of_not_lt hi)
    rw [Nat.testBit_lt_two_pow ((bitrev_lt l _).trans_le hl), Nat.testBit_lt_two_pow (h.trans_le hl)]

/-! The load. -/

@[simp] theorem loadSpectrum_length (l : Nat) (xw : List Int) : (loadSpectrum l xw).length = 2 ^ l := by
  simp [loadSpectrum]

theorem getElem?_loadSpectrum {l n : Nat} {xw : List Int} {x : Int} (hn : n < 2 ^ l)
    (hx : xw[bitrev l n]? = some x) : (loadSpectrum l xw)[n]? = some ⟨x, 0⟩ := by
  simp [loadSpectrum, hn, hx]

/-- Settles O32: the entries of the frame, of the windowed frame and of the load, one lemma each, and the laws of bit
reversal. -/
theorem loadIsBitReversed : Obligations.LoadIsBitReversed := by
  refine ⟨fun n v i h => getElem?_frameOf v h,
    fun w l frame h => ⟨windowed_length w h, fun i x hx => getElem?_windowed w h hx, rfl⟩,
    fun l xw h => ⟨loadSpectrum_length l xw, fun n hn => ⟨bitrev_lt l n, bitrev_bitrev hn,
      fun i hi => testBit_bitrev n hi, ?_⟩⟩⟩
  have hrev : bitrev l n < xw.length := h ▸ bitrev_lt l n
  have hx := List.getElem?_eq_getElem hrev
  exact ⟨_, hx, getElem?_loadSpectrum hn hx⟩

end Sys2Proof.Machine
end

section
/-! SUPPORT. A stage of the transform, entry by entry (42 R197): its groups, the butterflies of each, and their
twiddles. -/

namespace Sys2Proof.Machine

/-! One group. -/

section

variable {tws : List (Int × Int)} {us vs : List Cplx} {h j : Nat} {u v : Cplx} {tw : Int × Int}

theorem butterflyGroup_length (hus : us.length = h) (hvs : vs.length = h) (htws : tws.length = h) :
    (butterflyGroup tws us vs).length = 2 * h := by
  simp [butterflyGroup, hus, hvs, htws, Nat.two_mul]

/-- Butterfly j of a group writes u + t at j and u - t at j + h. -/
theorem getElem?_butterflyGroup (hus : us.length = h) (hvs : vs.length = h) (htws : tws.length = h)
    (hu : us[j]? = some u) (hv : vs[j]? = some v) (htw : tws[j]? = some tw) :
    (butterflyGroup tws us vs)[j]? = some (u.plus (twMul v tw.1 tw.2)) ∧
      (butterflyGroup tws us vs)[j + h]? = some (u.minus (twMul v tw.1 tw.2)) := by
  have hj : j < h := hus ▸ (List.getElem?_eq_some_iff.mp hu).1
  have ht : (List.zipWith (fun v tw => twMul v tw.1 tw.2) vs tws)[j]? = some (twMul v tw.1 tw.2) :=
    List.getElem?_zipWith_eq_some.mpr ⟨v, tw, hv, htw, rfl⟩
  have hlength : (List.zipWith Cplx.plus us (List.zipWith (fun v tw => twMul v tw.1 tw.2) vs tws)).length = h := by
    simp [hus, hvs, htws]
  constructor
  · rw [butterflyGroup, List.getElem?_append_left (hlength.symm ▸ hj)]
    exact List.getElem?_zipWith_eq_some.mpr ⟨u, _, hu, ht, rfl⟩
  · rw [butterflyGroup, List.getElem?_append_right (hlength.symm ▸ Nat.le_add_left h j), hlength, Nat.add_sub_cancel]
    exact List.getElem?_zipWith_eq_some.mpr ⟨u, _, hu, ht, rfl⟩

end

/-! The groups of a stage. -/

section

variable {tws : List (Int × Int)} {h : Nat}

/-- The first group of a stage: its butterflies pair the first h entries with the next h. -/
theorem firstGroup_length {groups : Nat} {a : List Cplx} (htws : tws.length = h)
    (ha : a.length = (groups + 1) * (2 * h)) :
    (butterflyGroup tws (a.take h) ((a.drop h).take h)).length = 2 * h := by
  rw [Nat.add_mul, Nat.one_mul] at ha
  refine butterflyGroup_length ?_ ?_ htws
  · rw [List.length_take]
    omega
  · rw [List.length_take, List.length_drop]
    omega

theorem stageGroups_length {groups : Nat} {a : List Cplx} (htws : tws.length = h)
    (ha : a.length = groups * (2 * h)) : (stageGroups h tws groups a).length = groups * (2 * h) := by
  induction groups generalizing a with
  | zero => simp [stageGroups]
  | succ groups ih =>
    have hrest : (a.drop (2 * h)).length = groups * (2 * h) := by
      rw [List.length_drop, ha, Nat.add_mul, Nat.one_mul, Nat.add_sub_cancel]
    rw [stageGroups, List.length_append, firstGroup_length htws ha, ih hrest, Nat.add_mul, Nat.one_mul, Nat.add_comm]

/-- Butterfly j of group g, in place (42 R197). -/
theorem getElem?_stageGroups {groups g j : Nat} {a : List Cplx} {u v : Cplx} {tw : Int × Int} (htws : tws.length = h)
    (ha : a.length = groups * (2 * h)) (hg : g < groups) (hu : a[g * (2 * h) + j]? = some u)
    (hv : a[g * (2 * h) + j + h]? = some v) (htw : tws[j]? = some tw) :
    (stageGroups h tws groups a)[g * (2 * h) + j]? = some (u.plus (twMul v tw.1 tw.2)) ∧
      (stageGroups h tws groups a)[g * (2 * h) + j + h]? = some (u.minus (twMul v tw.1 tw.2)) := by
  have hj : j < h := htws ▸ (List.getElem?_eq_some_iff.mp htw).1
  induction groups generalizing a g with
  | zero => exact absurd hg (Nat.not_lt_zero g)
  | succ groups ih =>
    have hfirst := firstGroup_length htws ha
    rw [Nat.add_mul, Nat.one_mul] at ha
    rw [stageGroups]
    cases g with
    | zero =>
      simp only [Nat.zero_mul, Nat.zero_add] at hu hv ⊢
      rw [List.getElem?_append_left (by omega), List.getElem?_append_left (by omega)]
      refine getElem?_butterflyGroup (by rw [List.length_take]; omega) ?_ htws ?_ ?_ htw
      · rw [List.length_take, List.length_drop]
        omega
      · rwa [List.getElem?_take_of_lt hj]
      · rwa [List.getElem?_take_of_lt hj, List.getElem?_drop, Nat.add_comm]
    | succ g =>
      have hshift : (g + 1) * (2 * h) + j = 2 * h + (g * (2 * h) + j) := by
        rw [Nat.add_mul, Nat.one_mul]
        omega
      rw [hshift] at hu hv ⊢
      rw [Nat.add_assoc] at hv ⊢
      rw [List.getElem?_append_right (by omega), List.getElem?_append_right (by omega), hfirst, Nat.add_sub_cancel_left,
        Nat.add_sub_cancel_left]
      refine ih (a := a.drop (2 * h)) ?_ (Nat.lt_of_succ_lt_succ hg) ?_ ?_
      · rw [List.length_drop, ha, Nat.add_sub_cancel]
      · rwa [List.getElem?_drop]
      · rwa [List.getElem?_drop]

end

/-! A stage. -/

@[simp] theorem stageTwiddles_length (h : Nat) : (stageTwiddles h).length = h := by
  simp [stageTwiddles]

theorem getElem?_stageTwiddles {h j : Nat} (hj : j < h) :
    (stageTwiddles h)[j]? = some (twiddleCos (j * (4096 / (2 * h))), twiddleSin (j * (4096 / (2 * h)))) := by
  simp [stageTwiddles, hj]

/-- A group of stage st has m = 2^st entries, 2 h of them (42 R197). -/
theorem two_mul_half {st : Nat} (h : 1 ≤ st) : 2 * 2 ^ (st - 1) = 2 ^ st :=
  mul_pow_sub_one (Nat.ne_of_gt h) 2

/-- The groups of a stage cover its entries (42 R197). -/
theorem groups_mul_size {l st : Nat} (h : st ≤ l) : 2 ^ (l - st) * 2 ^ st = 2 ^ l := by
  rw [← Nat.pow_add, Nat.sub_add_cancel h]

/-- Every twiddle index of a stage is in the ROM (42 R195, R197). -/
theorem twiddleIndex_lt {st j : Nat} (hst : 1 ≤ st) (hst' : st ≤ 12) (hj : j < 2 ^ (st - 1)) :
    j * (4096 / 2 ^ st) < 2048 := by
  have hstep : 2 ^ 12 / 2 ^ st = 2 ^ (12 - st) := Nat.pow_div hst' (by decide)
  calc j * (4096 / 2 ^ st)
    _ = j * 2 ^ (12 - st) := congrArg (j * ·) hstep
    _ < 2 ^ (st - 1) * 2 ^ (12 - st) := Nat.mul_lt_mul_of_pos_right hj (Nat.two_pow_pos _)
    _ = 2048 := by rw [← Nat.pow_add, show st - 1 + (12 - st) = 11 by omega]

theorem fftStage_length {l st : Nat} {a : List Cplx} (hst : 1 ≤ st) (hl : st ≤ l) (ha : a.length = 2 ^ l) :
    (fftStage l st a).length = 2 ^ l := by
  have hgroups : 2 ^ l = 2 ^ (l - st) * (2 * 2 ^ (st - 1)) := by rw [two_mul_half hst, groups_mul_size hl]
  rw [hgroups] at ha ⊢
  exact stageGroups_length (stageTwiddles_length _) ha

/-- Settles O33: the stages in order by definition, and butterfly j of group g by `getElem?_stageGroups`. -/
theorem stageIsItsButterflies : Obligations.StageIsItsButterflies := by
  refine ⟨fun l a => ⟨rfl, fun st => rfl⟩, fun l st a hst hl hl' ha => ⟨fftStage_length hst hl ha, fun g j hg hj => ?_⟩⟩
  refine ⟨twiddleIndex_lt hst (hl.trans hl') hj, ?_⟩
  have hsize := two_mul_half hst
  have hgroup : (g + 1) * 2 ^ st ≤ 2 ^ (l - st) * 2 ^ st := Nat.mul_le_mul_right _ hg
  rw [groups_mul_size hl, Nat.add_mul, Nat.one_mul, ← ha] at hgroup
  have entry (i : Nat) (hi : i < a.length) : ∃ x, a[i]? = some x := ⟨_, List.getElem?_eq_getElem hi⟩
  obtain ⟨u, hu⟩ := entry (g * 2 ^ st + j) (by omega)
  obtain ⟨v, hv⟩ := entry (g * 2 ^ st + j + 2 ^ (st - 1)) (by omega)
  refine ⟨u, v, hu, hv, ?_⟩
  have htw := getElem?_stageTwiddles hj
  rw [← hsize] at hu hv ⊢
  have hlength : a.length = 2 ^ (l - st) * (2 * 2 ^ (st - 1)) := by rw [ha, hsize, groups_mul_size hl]
  exact (getElem?_stageGroups (stageTwiddles_length _) hlength hg hu hv htw :)

end Sys2Proof.Machine
end

section
/-! SUPPORT. The peak search (42 R202, R203): it finds the earliest maximum of the powers of the lower half. -/

namespace Sys2Proof.Machine

/-! The search. -/

/-- Entry k of the list is P, every entry is at most P, and those before k are below it (42 R202). -/
def IsEarliestMax (powers : List Nat) (k P : Nat) : Prop :=
  powers[k]? = some P ∧ ∀ j p, powers[j]? = some p → p ≤ P ∧ (j < k → p < P)

theorem isEarliestMax_singleton (p : Nat) : IsEarliestMax [p] 0 p := by
  refine ⟨rfl, fun j q hq => ?_⟩
  cases j with
  | zero => exact ⟨(Option.some.inj hq).ge, fun h => absurd h (Nat.lt_irrefl 0)⟩
  | succ j => simp at hq

section

variable {seen : List Nat} {best bestP p : Nat}

/-- An entry of a list with one more at its end is an old entry or the new one. -/
theorem getElem?_snoc_cases {j q : Nat} (h : (seen ++ [p])[j]? = some q) :
    (j < seen.length ∧ seen[j]? = some q) ∨ (j = seen.length ∧ q = p) := by
  rcases Nat.lt_trichotomy j seen.length with hj | rfl | hj
  · rw [List.getElem?_append_left hj] at h
    exact .inl ⟨hj, h⟩
  · rw [List.getElem?_concat_length] at h
    exact .inr ⟨rfl, (Option.some.inj h).symm⟩
  · rw [List.getElem?_eq_none (by simpa using hj)] at h
    cases h

/-- A strictly greater entry becomes the maximum. -/
theorem IsEarliestMax.snoc_greater (h : IsEarliestMax seen best bestP) (hp : bestP < p) :
    IsEarliestMax (seen ++ [p]) seen.length p := by
  refine ⟨List.getElem?_concat_length, fun j q hq => ?_⟩
  obtain ⟨-, hq⟩ | ⟨rfl, rfl⟩ := getElem?_snoc_cases hq
  · have hlt := ((h.2 j q hq).1).trans_lt hp
    exact ⟨hlt.le, fun _ => hlt⟩
  · exact ⟨le_rfl, fun h => absurd h (Nat.lt_irrefl _)⟩

/-- Any other entry leaves it: the earliest bin wins ties. -/
theorem IsEarliestMax.snoc_le (h : IsEarliestMax seen best bestP) (hp : p ≤ bestP) :
    IsEarliestMax (seen ++ [p]) best bestP := by
  have hbest : best < seen.length := (List.getElem?_eq_some_iff.mp h.1).1
  refine ⟨by rw [List.getElem?_append_left hbest, h.1], fun j q hq => ?_⟩
  obtain ⟨-, hq⟩ | ⟨rfl, rfl⟩ := getElem?_snoc_cases hq
  · exact h.2 j q hq
  · exact ⟨hp, fun hlt => absurd hlt (Nat.not_lt_of_lt hbest)⟩

end

theorem peakSearch_isEarliestMax {seen : List Nat} {best bestP : Nat} (ps : List Nat)
    (h : IsEarliestMax seen best bestP) :
    IsEarliestMax (seen ++ ps) (peakSearch ps seen.length best bestP).1 (peakSearch ps seen.length best bestP).2 := by
  induction ps generalizing seen best bestP with
  | nil => simpa [peakSearch] using h
  | cons p ps ih =>
    have hnext : seen.length + 1 = (seen ++ [p]).length := by simp
    rw [List.append_cons, peakSearch, hnext]
    split
    · rename_i greater
      exact ih (h.snoc_greater greater)
    · rename_i notGreater
      exact ih (h.snoc_le (Nat.le_of_not_lt notGreater))

theorem peakOfPowers_isEarliestMax {powers : List Nat} (h : powers ≠ []) :
    IsEarliestMax powers (peakOfPowers powers).1 (peakOfPowers powers).2 := by
  cases powers with
  | nil => exact absurd rfl h
  | cons p ps => exact peakSearch_isEarliestMax ps (isEarliestMax_singleton p)

/-! The peak of the transform. -/

theorem fftStages_length {l st : Nat} {a : List Cplx} (hl : st ≤ l) (ha : a.length = 2 ^ l) :
    (fftStages l st a).length = 2 ^ l := by
  induction st with
  | zero => exact ha
  | succ st ih => exact fftStage_length (Nat.succ_pos st) hl (ih (Nat.le_of_succ_le hl))

@[simp] theorem fft_length (w : Window) (l : Nat) (frame : List Int) : (fft w l frame).length = 2 ^ l :=
  fftStages_length le_rfl (loadSpectrum_length _ _)

/-- P_k is the squared magnitude (42 R201). -/
theorem Cplx.cast_power (x : Cplx) : (x.power : Int) = x.re ^ 2 + x.im ^ 2 := by
  rw [Cplx.power, Int.toNat_of_nonneg (add_nonneg (mul_self_nonneg _) (mul_self_nonneg _)), sq, sq]

/-- The powers of the lower half of the spectrum, which the peak search runs over (42 R202). -/
def lowerPowers (w : Window) (l : Nat) (frame : List Int) : List Nat :=
  ((fft w l frame).take (2 ^ l / 2)).map Cplx.power

theorem spectralPeak_eq (w : Window) (l : Nat) (frame : List Int) : spectralPeak w l frame =
    ((peakOfPowers (lowerPowers w l frame)).1, isqrt (peakOfPowers (lowerPowers w l frame)).2) := rfl

theorem getElem?_lowerPowers {w : Window} {l j p : Nat} {frame : List Int} :
    (lowerPowers w l frame)[j]? = some p ↔ j < 2 ^ l / 2 ∧ ∃ y, (fft w l frame)[j]? = some y ∧ y.power = p := by
  rw [lowerPowers, List.getElem?_map, List.getElem?_take]
  split <;> simp [*]

/-- The peak is the earliest maximum of the lower half, and its magnitude the integer square root (42 R202). -/
theorem spectralPeak_spec (w : Window) {l : Nat} (hl : 1 ≤ l) (frame : List Int) {k mag : Nat}
    (peak : spectralPeak w l frame = (k, mag)) : ∃ P, IsEarliestMax (lowerPowers w l frame) k P ∧ mag = isqrt P := by
  rw [spectralPeak_eq] at peak
  obtain ⟨rfl, rfl⟩ := Prod.mk.inj peak
  refine ⟨_, peakOfPowers_isEarliestMax (List.ne_nil_of_length_pos ?_), rfl⟩
  have hhalf : 2 ^ l / 2 = 2 ^ (l - 1) := half_frameSize hl
  simp [lowerPowers, hhalf]

/-- Settles O35: the earliest maximum of the powers, read back as squared magnitudes of the transform's entries. -/
theorem peakIsTheEarliestMaximum : Obligations.PeakIsTheEarliestMaximum := by
  intro w l frame hl _ k mag peak
  obtain ⟨P, ⟨hk, hmax⟩, rfl⟩ := spectralPeak_spec w hl frame peak.symm
  obtain ⟨hhalf, x, hx, rfl⟩ := getElem?_lowerPowers.mp hk
  obtain ⟨hlow, hhigh⟩ := isqrt_spec x.power
  refine ⟨hhalf, x, hx, ?_, ?_, fun j y hj hy => ?_⟩
  · rw [← Cplx.cast_power]
    exact_mod_cast hlow
  · rw [← Cplx.cast_power]
    exact_mod_cast hhigh
  · rw [← Cplx.cast_power, ← Cplx.cast_power]
    exact_mod_cast hmax j y.power (getElem?_lowerPowers.mpr ⟨hj, y, hy, rfl⟩)

end Sys2Proof.Machine
end

section
/-! SUPPORT. The fixed-point cosine of the ROMs (42 R192, R195; log entry 9) is within 20 units of 2^-64 of the real
one. The model's factor is the start of the series 1 - y/((a+1)(a+2)) * (1 - y/((a+3)(a+4)) * (...)); the series obeys
the same recursion exactly, and each factor passes on at most half of the error of the one inside it. -/

namespace Sys2Proof.Machine

/-! The series. -/

/-- Term m of the series that starts after the a-th power: (-y)^m * a! / (a + 2m)!. -/
noncomputable def seriesTerm (y : ℝ) (a m : ℕ) : ℝ := (-y) ^ m * a.factorial / (a + 2 * m).factorial

/-- The sum of the terms: cos x for a = 0 and sin x / x for a = 1, with y = x^2 (`cos_eq_series`, `sin_eq_series`). -/
noncomputable def series (y : ℝ) (a : ℕ) : ℝ := ∑' m, seriesTerm y a m

theorem seriesTerm_zero (y : ℝ) (a : ℕ) : seriesTerm y a 0 = 1 := by
  simp [seriesTerm, Nat.factorial_ne_zero]

theorem cast_factorial_add_two (a : ℕ) : ((a + 2).factorial : ℝ) = (a + 1) * (a + 2) * a.factorial := by
  rw [Nat.factorial_succ, Nat.factorial_succ]
  push_cast
  ring

theorem seriesTerm_succ (y : ℝ) (a m : ℕ) :
    seriesTerm y a (m + 1) = -(y / ((a + 1) * (a + 2))) * seriesTerm y (a + 2) m := by
  have hindex : a + 2 * (m + 1) = a + 2 + 2 * m := by ring
  rw [seriesTerm, seriesTerm, hindex, cast_factorial_add_two, pow_succ]
  field_simp

section

variable {y : ℝ}

/-- A factor passes on at most half of what is inside it. -/
theorem factor_le_half (hy' : y ≤ 1) (a : ℕ) : y / ((a + 1) * (a + 2)) ≤ 1 / 2 := by
  rw [div_le_div_iff₀ (by positivity) (by norm_num)]
  have ha : (0 : ℝ) ≤ a := a.cast_nonneg
  nlinarith

variable (hy : 0 ≤ y) (hy' : y ≤ 1)
include hy hy'

theorem abs_seriesTerm_le (a m : ℕ) : |seriesTerm y a m| ≤ (1 / 2) ^ m := by
  induction m generalizing a with
  | zero => simp [seriesTerm_zero]
  | succ m ih =>
    rw [seriesTerm_succ, abs_mul, abs_neg, abs_of_nonneg (by positivity), pow_succ, mul_comm]
    exact mul_le_mul (ih _) (factor_le_half hy' a) (by positivity) (by positivity)

theorem summable_seriesTerm (a : ℕ) : Summable (seriesTerm y a) :=
  .of_norm_bounded summable_geometric_two (abs_seriesTerm_le hy hy' a)

theorem abs_series_le (a : ℕ) : |series y a| ≤ 2 :=
  tsum_of_norm_bounded (f := seriesTerm y a) hasSum_geometric_two (abs_seriesTerm_le hy hy' a)

/-- The recursion of the model's factor holds exactly of the series. -/
theorem series_eq (a : ℕ) : series y a = 1 - y / ((a + 1) * (a + 2)) * series y (a + 2) := by
  rw [series, (summable_seriesTerm hy hy' a).tsum_eq_zero_add, seriesTerm_zero]
  simp only [seriesTerm_succ, tsum_mul_left]
  rw [series]
  ring

end

theorem cos_eq_series (x : ℝ) : Real.cos x = series (x ^ 2) 0 := by
  rw [← (Real.hasSum_cos x).tsum_eq, series]
  refine tsum_congr fun m => ?_
  rw [seriesTerm, pow_mul, neg_pow (x ^ 2), Nat.factorial_zero, Nat.cast_one, mul_one, zero_add]

theorem sin_eq_series (x : ℝ) : Real.sin x = x * series (x ^ 2) 1 := by
  rw [← (Real.hasSum_sin x).tsum_eq, series, ← tsum_mul_left]
  refine tsum_congr fun m => ?_
  rw [seriesTerm, pow_succ, pow_mul, neg_pow (x ^ 2), Nat.factorial_one, Nat.cast_one, add_comm 1]
  ring

/-! Numbers with 64 fraction bits. -/

/-- `n`, read with 64 fraction bits, is within `e` units of the last bit of `x`. -/
def Near (n x e : ℝ) : Prop := |n - 2 ^ 64 * x| ≤ e

section

variable {n n' x x' e e' c : ℝ}

theorem Near.mono (h : Near n x e) (he : e ≤ e') : Near n x e' := le_trans h he

theorem Near.le (h : Near n x e) : n ≤ 2 ^ 64 * x + e := by
  have := (abs_le.mp h).2
  linarith

/-- A constant factor scales the error. -/
theorem Near.const_mul (h : Near n x e) (hc : 0 ≤ c) : Near (c * n) (c * x) (c * e) := by
  have hdiff : c * n - 2 ^ 64 * (c * x) = c * (n - 2 ^ 64 * x) := by ring
  rw [Near, hdiff, abs_mul, abs_of_nonneg hc]
  exact mul_le_mul_of_nonneg_left h hc

/-- The error of a product of two numbers with 64 fraction bits. -/
theorem Near.mul (h : Near n x e) (h' : Near n' x' e') (hn : |n| ≤ 2 ^ 64) (hx : |x'| ≤ c) :
    Near (n * n' / 2 ^ 64) (x * x') (e' + e * c) := by
  have hdiff : n * n' / 2 ^ 64 - 2 ^ 64 * (x * x') = n / 2 ^ 64 * (n' - 2 ^ 64 * x') + (n - 2 ^ 64 * x) * x' := by ring
  have hn1 : |n / 2 ^ 64| ≤ 1 := by
    rw [abs_div, abs_of_pos (by positivity : (0 : ℝ) < 2 ^ 64)]
    exact div_le_one_of_le₀ hn (by positivity)
  rw [Near, hdiff]
  calc |n / 2 ^ 64 * (n' - 2 ^ 64 * x') + (n - 2 ^ 64 * x) * x'|
    _ ≤ |n / 2 ^ 64| * |n' - 2 ^ 64 * x'| + |n - 2 ^ 64 * x| * |x'| := by
      rw [← abs_mul, ← abs_mul]
      exact abs_add_le _ _
    _ ≤ 1 * e' + e * c :=
      add_le_add (mul_le_mul hn1 h' (abs_nonneg _) zero_le_one)
        (mul_le_mul h hx (abs_nonneg _) ((abs_nonneg _).trans h))
    _ = e' + e * c := by rw [one_mul]

/-- A truncating division costs one unit more. -/
theorem Near.natDiv {p q : ℕ} (h : Near ((p : ℝ) / q) x e) : Near ((p / q : ℕ) : ℝ) x (e + 1) := by
  have hlow : (p : ℝ) / q - 1 < ((p / q : ℕ) : ℝ) := by
    rw [← Nat.floor_div_eq_div (K := ℝ)]
    exact Nat.sub_one_lt_floor _
  have hhigh : ((p / q : ℕ) : ℝ) ≤ (p : ℝ) / q := Nat.cast_div_le
  rw [Near, abs_le] at h ⊢
  constructor <;> linarith

/-- The error of a truncated product. -/
theorem Near.natMul {m m' : ℕ} (h : Near m x e) (h' : Near m' x' e') (hm : m ≤ 2 ^ 64) (hx : |x'| ≤ c) :
    Near (m * m' / 2 ^ 64 : ℕ) (x * x') (e' + e * c + 1) := by
  have hcast : ((m * m' : ℕ) / (2 ^ 64 : ℕ) : ℝ) = m * m' / 2 ^ 64 := by
    rw [Nat.cast_mul, Nat.cast_pow, Nat.cast_ofNat]
  refine Near.natDiv (hcast ▸ h.mul h' ?_ hx)
  rw [abs_of_nonneg m.cast_nonneg]
  exact_mod_cast hm

end

/-! The model's factor. -/

theorem taylorFactor_le (y k a : ℕ) : taylorFactor y k a ≤ 2 ^ 64 := by
  cases k with
  | zero => exact le_rfl
  | succ k => exact Nat.sub_le _ _

/-- One factor, as a real number: the two truncating divisions are one. -/
theorem cast_taylorFactor_succ {y : ℕ} (hy : y ≤ 2 ^ 64) (k a : ℕ) :
    (taylorFactor y (k + 1) a : ℝ) =
      2 ^ 64 - ((y * taylorFactor y k (a + 2) / (2 ^ 64 * ((a + 1) * (a + 2))) : ℕ) : ℝ) := by
  have hle : y * taylorFactor y k (a + 2) / (2 ^ 64 * ((a + 1) * (a + 2))) ≤ 2 ^ 64 := by
    refine Nat.div_le_of_le_mul ?_
    calc y * taylorFactor y k (a + 2)
      _ ≤ 2 ^ 64 * 2 ^ 64 := Nat.mul_le_mul hy (taylorFactor_le _ _ _)
      _ ≤ 2 ^ 64 * ((a + 1) * (a + 2)) * 2 ^ 64 :=
        Nat.mul_le_mul_right _ (Nat.le_mul_of_pos_right _ (by positivity))
  rw [taylorFactor, Nat.div_div_eq_div_mul, Nat.cast_sub hle]
  norm_num

/-- With k factors the model's value is near the series: the start of the series is cut off after the k-th term, and the
truncations add up to at most 12 units. -/
theorem taylorFactor_near {Y : ℕ} {y : ℝ} (hnear : Near Y y 5) (hY : Y ≤ 2 ^ 64) (hy : 0 ≤ y) (hy' : y ≤ 1) (k a : ℕ) :
    Near (taylorFactor Y k a) (series y a) (2 ^ 64 * (a.factorial / (a + 2 * k).factorial) + 12) := by
  induction k generalizing a with
  | zero =>
    have hfactor := factor_le_half hy' a
    have hseries := abs_le.mp (abs_series_le hy hy' (a + 2))
    have hpos : 0 ≤ y / ((a + 1) * (a + 2)) := by positivity
    have hself : (a.factorial : ℝ) / (a + 2 * 0).factorial = 1 := div_self (by positivity)
    rw [Near, series_eq hy hy', hself, abs_le, taylorFactor]
    push_cast
    constructor <;> nlinarith
  | succ k ih =>
    have hYabs : |(Y : ℝ)| ≤ 2 ^ 64 := by
      rw [abs_of_nonneg (by positivity)]
      exact_mod_cast hY
    have hprod := (hnear.mul (ih (a + 2)) hYabs (abs_series_le hy hy' (a + 2))).const_mul
      (c := 1 / ((a + 1) * (a + 2))) (by positivity)
    have hquot : Near ((Y * taylorFactor Y k (a + 2) : ℕ) / (2 ^ 64 * ((a + 1) * (a + 2)) : ℕ) : ℝ)
        (y / ((a + 1) * (a + 2)) * series y (a + 2))
        (2 ^ 64 * (a.factorial / (a + 2 * (k + 1)).factorial) + 11) := by
      have hn : ((Y * taylorFactor Y k (a + 2) : ℕ) / (2 ^ 64 * ((a + 1) * (a + 2)) : ℕ) : ℝ) =
          1 / ((a + 1) * (a + 2)) * (Y * taylorFactor Y k (a + 2) / 2 ^ 64) := by
        push_cast
        field_simp
        norm_num
      have hx : y / ((a + 1) * (a + 2)) * series y (a + 2) = 1 / ((a + 1) * (a + 2)) * (y * series y (a + 2)) := by ring
      have hcut : 1 / ((a + 1) * (a + 2)) * (2 ^ 64 * ((a + 2).factorial / (a + 2 + 2 * k).factorial : ℝ)) =
          2 ^ 64 * (a.factorial / (a + 2 * (k + 1)).factorial) := by
        rw [cast_factorial_add_two, show a + 2 * (k + 1) = a + 2 + 2 * k by ring]
        field_simp
      have hhalf := factor_le_half (le_refl (1 : ℝ)) a
      rw [hn, hx]
      refine hprod.mono ?_
      linarith
    have hfloor := hquot.natDiv
    rw [Near, abs_le] at hfloor ⊢
    rw [cast_taylorFactor_succ hY, series_eq hy hy']
    constructor <;> linarith

/-! Cosine and sine of an angle of at most one eighth of a turn. -/

theorem piFixed_near : Near piFixed Real.pi 1 := by
  have hlow := Real.pi_gt_d20
  have hhigh := Real.pi_lt_d20
  rw [Near, piFixed, abs_le]
  push_cast
  constructor <;> linarith

/-- The angle of `num/den` of a turn. -/
noncomputable def turnAngle (num den : ℕ) : ℝ := 2 * Real.pi * num / den

section

variable {num den : ℕ} (hden : 0 < den) (h : 8 * num ≤ den)
include hden h

theorem turnAngle_octant : 0 ≤ turnAngle num den ∧ turnAngle num den ≤ 4 / 5 := by
  have hpi := Real.pi_lt_d2
  have hpi0 := Real.pi_pos
  have h' : (8 : ℝ) * num ≤ den := by exact_mod_cast h
  have hden' : (0 : ℝ) < den := by exact_mod_cast hden
  refine ⟨by rw [turnAngle]; positivity, ?_⟩
  rw [turnAngle, div_le_iff₀ hden']
  nlinarith

theorem turnToRadians_near : Near (turnToRadians num den) (turnAngle num den) 2 := by
  have h' : (8 : ℝ) * num ≤ den := by exact_mod_cast h
  have hden' : (0 : ℝ) < den := by exact_mod_cast hden
  have hratio : 2 * num / den ≤ (1 : ℝ) := by
    rw [div_le_one hden']
    linarith
  have hscaled := (piFixed_near.const_mul (c := 2 * num / den) (by positivity)).mono (by linarith : _ ≤ (1 : ℝ))
  have hquot : Near ((2 * piFixed * num : ℕ) / den : ℝ) (turnAngle num den) 1 := by
    have hn : ((2 * piFixed * num : ℕ) / den : ℝ) = 2 * num / den * piFixed := by
      push_cast
      ring
    have hx : turnAngle num den = 2 * num / den * Real.pi := by
      rw [turnAngle]
      ring
    rwa [hn, hx]
  exact hquot.natDiv.mono (by norm_num)

theorem turnToRadians_le : turnToRadians num den ≤ 2 ^ 64 := by
  have hle := (turnToRadians_near hden h).le
  have hangle := (turnAngle_octant hden h).2
  have hcast : (turnToRadians num den : ℝ) ≤ 2 ^ 64 := by linarith
  exact_mod_cast hcast

theorem turnToRadians_sq_near :
    Near (turnToRadians num den * turnToRadians num den / 2 ^ 64 : ℕ) (turnAngle num den ^ 2) 5 := by
  have hx := turnToRadians_near hden h
  obtain ⟨hangle0, hangle⟩ := turnAngle_octant hden h
  have hangle1 : |turnAngle num den| ≤ 1 := by
    rw [abs_of_nonneg hangle0]
    linarith
  rw [sq]
  exact (hx.natMul hx (turnToRadians_le hden h) hangle1).mono (by norm_num)

/-- Eleven factors leave one unit of the series out at most. -/
theorem octantFactor_near {a : ℕ} (ha : (2 : ℝ) ^ 64 * (a.factorial / (a + 2 * taylorTerms).factorial) ≤ 1) :
    Near (taylorFactor (turnToRadians num den * turnToRadians num den / 2 ^ 64) taylorTerms a)
      (series (turnAngle num den ^ 2) a) 13 := by
  obtain ⟨hangle0, hangle⟩ := turnAngle_octant hden h
  have hsq := turnToRadians_sq_near hden h
  have hangleSq : turnAngle num den ^ 2 ≤ (4 / 5) ^ 2 := pow_le_pow_left₀ hangle0 hangle 2
  have hle : (turnToRadians num den * turnToRadians num den / 2 ^ 64 : ℕ) ≤ 2 ^ 64 := by
    have hcast : ((turnToRadians num den * turnToRadians num den / 2 ^ 64 : ℕ) : ℝ) ≤ 2 ^ 64 := by
      have := hsq.le
      linarith
    exact_mod_cast hcast
  exact (taylorFactor_near hsq hle (by positivity) (by linarith) taylorTerms a).mono (by linarith)

theorem cosOctant_near : Near (cosOctant num den) (Real.cos (turnAngle num den)) 20 := by
  rw [cos_eq_series]
  refine (octantFactor_near hden h ?_).mono (by norm_num)
  norm_num [taylorTerms, Nat.factorial]

theorem sinOctant_near : Near (sinOctant num den) (Real.sin (turnAngle num den)) 20 := by
  have hfactor := octantFactor_near hden h (a := 1) (by norm_num [taylorTerms, Nat.factorial])
  obtain ⟨hangle0, hangle⟩ := turnAngle_octant hden h
  have hsq1 : turnAngle num den ^ 2 ≤ 1 := pow_le_one₀ hangle0 (by linarith)
  have hseries := abs_series_le (by positivity) hsq1 1
  rw [sin_eq_series]
  exact ((turnToRadians_near hden h).natMul hfactor (turnToRadians_le hden h) hseries).mono (by norm_num)

end

/-! The whole turn, by symmetry. -/

/-- Past one eighth of a turn the cosine is the sine of the rest of the quarter. -/
theorem cosQuarter_near {num den : ℕ} (hden : 0 < den) (h : 4 * num ≤ den) :
    Near (cosQuarter num den) (Real.cos (turnAngle num den)) 20 := by
  rw [cosQuarter]
  split
  · rename_i octant
    exact cosOctant_near hden octant
  · rename_i notOctant
    have hangle : turnAngle (den - 4 * num) (4 * den) = Real.pi / 2 - turnAngle num den := by
      rw [turnAngle, turnAngle, Nat.cast_sub h]
      push_cast
      field_simp
      ring
    have hsin := sinOctant_near (num := den - 4 * num) (den := 4 * den) (by omega) (by omega)
    rwa [hangle, Real.sin_pi_div_two_sub] at hsin

/-- The place in the first half turn with the same cosine, `num/den` of a turn being taken to it by whole turns and by
symmetry about the half turn. -/
def foldTurn (num den : ℕ) : ℕ := min (num % den) (den - num % den)

theorem two_mul_foldTurn_le (num : ℕ) {den : ℕ} (hden : 0 < den) : 2 * foldTurn num den ≤ den := by
  have := Nat.mod_lt num hden
  simp only [foldTurn]
  omega

theorem cosTurn_eq (num den : ℕ) : cosTurn num den =
    if 4 * foldTurn num den ≤ den then (cosQuarter (foldTurn num den) den : Int)
    else -(cosQuarter (den - 2 * foldTurn num den) (2 * den) : Int) := rfl

/-- The cosine repeats after a whole turn and is symmetric about the half turn. -/
theorem cos_turnAngle_fold (num : ℕ) {den : ℕ} (hden : 0 < den) :
    Real.cos (turnAngle (foldTurn num den) den) = Real.cos (turnAngle num den) := by
  have hden' : (den : ℝ) ≠ 0 := by exact_mod_cast hden.ne'
  have hmod : Real.cos (turnAngle (num % den) den) = Real.cos (turnAngle num den) := by
    have hsplit : (num : ℝ) = (num % den : ℕ) + den * (num / den : ℕ) := by
      exact_mod_cast (Nat.mod_add_div num den).symm
    have hangle : turnAngle num den = turnAngle (num % den) den + (num / den : ℕ) * (2 * Real.pi) := by
      rw [turnAngle, turnAngle, hsplit]
      field_simp
    rw [hangle, Real.cos_add_nat_mul_two_pi]
  have hreflect : Real.cos (turnAngle (den - num % den) den) = Real.cos (turnAngle (num % den) den) := by
    have hangle : turnAngle (den - num % den) den = 2 * Real.pi - turnAngle (num % den) den := by
      rw [turnAngle, turnAngle, Nat.cast_sub (Nat.mod_lt _ hden).le]
      field_simp
    rw [hangle, Real.cos_two_pi_sub]
  rcases min_choice (num % den) (den - num % den) with hmin | hmin
  · rw [foldTurn, hmin, hmod]
  · rw [foldTurn, hmin, hreflect, hmod]

/-- The model's cosine is within 20 units of 2^-64 of the real one, at every angle (log entry 9). -/
theorem cosTurn_near (num : ℕ) {den : ℕ} (hden : 0 < den) :
    Near (cosTurn num den) (Real.cos (turnAngle num den)) 20 := by
  have hhalf := two_mul_foldTurn_le num hden
  rw [← cos_turnAngle_fold num hden, cosTurn_eq]
  split
  · rename_i quarter
    exact_mod_cast cosQuarter_near hden quarter
  · rename_i notQuarter
    have hangle : turnAngle (den - 2 * foldTurn num den) (2 * den) = Real.pi - turnAngle (foldTurn num den) den := by
      rw [turnAngle, turnAngle, Nat.cast_sub hhalf]
      push_cast
      field_simp
    have hcos := cosQuarter_near (num := den - 2 * foldTurn num den) (den := 2 * den) (by omega) (by omega)
    rw [hangle, Real.cos_pi_sub] at hcos
    rw [Near, abs_le] at hcos ⊢
    push_cast
    constructor <;> linarith

end Sys2Proof.Machine
end

section
/-! SUPPORT. The window and twiddle ROMs (42 R190 to R193, R195): the spec's real formulas, rounded. A rounded value can
only differ from the rounded formula where the formula is within the error of `cosTurn_near` of a half, and no entry is:
the kernel evaluates every entry once and finds each clear of the halves (log entry 9). -/

namespace Sys2Proof.Machine

/-! Rounding with a margin. -/

/-- x is at least ε away from where x / d steps, on both sides. -/
abbrev ClearBy (ε x d : Int) : Prop := 2 * ε ≤ (x + ε) % d

/-- A quotient clear by ε of its steps is the floor of every real number within ε of it. -/
theorem ediv_eq_floor {ε x d : Int} {y : ℝ} (hd : 0 < d) (hclear : ClearBy ε x d) (hy : |(x : ℝ) - d * y| ≤ ε) :
    x / d = ⌊y⌋ := by
  have hε : 0 ≤ ε := by exact_mod_cast (abs_nonneg _).trans hy
  obtain ⟨hy, hy'⟩ := abs_le.mp hy
  have hsplit := Int.mul_ediv_add_emod (x + ε) d
  have hrem := Int.emod_lt_of_pos (x + ε) hd
  have hlow : d * ((x + ε) / d) + ε ≤ x := by linarith
  have hhigh : x < d * ((x + ε) / d) + d - ε := by linarith
  have hfloor : ⌊y⌋ = (x + ε) / d := by
    have hlowR : (d : ℝ) * ((x + ε) / d : Int) + ε ≤ x := by exact_mod_cast hlow
    have hhighR : (x : ℝ) < d * ((x + ε) / d : Int) + d - ε := by exact_mod_cast hhigh
    have hdR : (0 : ℝ) < d := by exact_mod_cast hd
    rw [Int.floor_eq_iff]
    constructor <;> nlinarith
  rw [hfloor]
  refine le_antisymm (Int.le_of_lt_add_one ((Int.ediv_lt_iff_lt_mul hd).mpr ?_)) ((Int.le_ediv_iff_mul_le hd).mpr ?_)
  all_goals linarith

/-! The numerators of the three formulas, of which each entry is a truncated quotient. -/

def hannNumerator (c : Int) : Int := 2 ^ 15 * (2 ^ 64 - c) + 2 ^ 63

def hammingNumerator (c : Int) : Int := 2 ^ 17 * (27 * 2 ^ 64 - 23 * c) + 50 * 2 ^ 64

def twiddleNumerator (c : Int) : Int := 2 ^ 15 * c + 2 ^ 63

theorem hannCoeff_eq (n i : Nat) : hannCoeff n i = hannNumerator (cosTurn i (n - 1)) / 2 ^ 64 := rfl

theorem hammingCoeff_eq (n i : Nat) : hammingCoeff n i = hammingNumerator (cosTurn i (n - 1)) / (100 * 2 ^ 64) := rfl

theorem twiddleCos_eq (j : Nat) : twiddleCos j = twiddleNumerator (cosTurn j 4096) / 2 ^ 64 := rfl

theorem twiddleSin_eq (j : Nat) : twiddleSin j = twiddleNumerator (cosTurn (j + 3072) 4096) / 2 ^ 64 := rfl

section

variable {c : Int} {x : ℝ} (hnear : Near c x 20)
include hnear

theorem hannNumerator_div (hclear : ClearBy (2 ^ 20) (hannNumerator c) (2 ^ 64)) :
    hannNumerator c / 2 ^ 64 = round ((2 : ℝ) ^ 16 * (1 / 2 * (1 - x))) := by
  obtain ⟨hlow, hhigh⟩ := abs_le.mp hnear
  rw [round_eq]
  refine ediv_eq_floor (by norm_num) hclear (abs_le.mpr ?_)
  simp only [hannNumerator]
  push_cast
  constructor <;> linarith

theorem hammingNumerator_div (hclear : ClearBy (2 ^ 26) (hammingNumerator c) (100 * 2 ^ 64)) :
    hammingNumerator c / (100 * 2 ^ 64) = round ((2 : ℝ) ^ 16 * (27 / 50 - 23 / 50 * x)) := by
  obtain ⟨hlow, hhigh⟩ := abs_le.mp hnear
  rw [round_eq]
  refine ediv_eq_floor (by norm_num) hclear (abs_le.mpr ?_)
  simp only [hammingNumerator]
  push_cast
  constructor <;> linarith

theorem twiddleNumerator_div (hclear : ClearBy (2 ^ 20) (twiddleNumerator c) (2 ^ 64)) :
    twiddleNumerator c / 2 ^ 64 = round ((2 : ℝ) ^ 15 * x) := by
  obtain ⟨hlow, hhigh⟩ := abs_le.mp hnear
  rw [round_eq]
  refine ediv_eq_floor (by norm_num) hclear (abs_le.mpr ?_)
  simp only [twiddleNumerator]
  push_cast
  constructor <;> linarith

end

/-! The entries are clear of the halves. -/

/-- Folding twice is folding once, so a cosine is looked at in the first half turn only. -/
theorem cosTurn_foldTurn (num den : Nat) : cosTurn (foldTurn num den) den = cosTurn num den := by
  have hfold : foldTurn (foldTurn num den) den = foldTurn num den := by
    obtain rfl | hden := Nat.eq_zero_or_pos den
    · simp [foldTurn]
    have hhalf := two_mul_foldTurn_le num hden
    rw [foldTurn, Nat.mod_eq_of_lt (by omega)]
    omega
  rw [cosTurn_eq, hfold, ← cosTurn_eq]

/-- Both entries of the window ROM at `i/den` of a turn are clear of the halves. -/
abbrev WindowClear (den i : Nat) : Prop :=
  ClearBy (2 ^ 20) (hannNumerator (cosTurn i den)) (2 ^ 64) ∧
    ClearBy (2 ^ 26) (hammingNumerator (cosTurn i den)) (100 * 2 ^ 64)

/-- The first halves of the windows of all frame sizes, 4095 entries. -/
theorem windowClear_firstHalf :
    ∀ l < 12, ∀ i ∈ List.range (2 ^ l), WindowClear (2 ^ (l + 1) - 1) i := by
  decide +kernel

theorem windowClear {l : Nat} (hl : 1 ≤ l) (hl' : l ≤ 12) (i : Nat) : WindowClear (2 ^ l - 1) i := by
  obtain ⟨l, rfl⟩ := Nat.exists_eq_add_of_le' hl
  have hpow : 2 ^ (l + 1) = 2 * 2 ^ l := Nat.pow_succ'
  have hpos := Nat.two_pow_pos l
  have hhalf := two_mul_foldTurn_le i (den := 2 ^ (l + 1) - 1) (by omega)
  have hclear := windowClear_firstHalf l (by omega) (foldTurn i (2 ^ (l + 1) - 1)) (List.mem_range.mpr (by omega))
  rwa [WindowClear, cosTurn_foldTurn] at hclear

/-- The first half turn of the twiddles. -/
theorem twiddleClear_firstHalf :
    ∀ j ∈ List.range 2049, ClearBy (2 ^ 20) (twiddleNumerator (cosTurn j 4096)) (2 ^ 64) := by
  decide +kernel

theorem twiddleClear (j : Nat) : ClearBy (2 ^ 20) (twiddleNumerator (cosTurn j 4096)) (2 ^ 64) := by
  have hhalf := two_mul_foldTurn_le j (den := 4096) (by decide)
  have hclear := twiddleClear_firstHalf (foldTurn j 4096) (List.mem_range.mpr (by omega))
  rwa [cosTurn_foldTurn] at hclear

/-! The windows. -/

theorem hannCoeff_eq_round {l i : Nat} (hl : 1 ≤ l) (hl' : l ≤ 12) : hannCoeff (2 ^ l) i =
    round ((2 : ℝ) ^ 16 * (1 / 2 * (1 - Real.cos (turnAngle i (2 ^ l - 1))))) := by
  rw [hannCoeff_eq]
  exact hannNumerator_div (cosTurn_near i (Nat.sub_pos_of_lt (Nat.one_lt_two_pow (by omega)))) (windowClear hl hl' i).1

theorem hammingCoeff_eq_round {l i : Nat} (hl : 1 ≤ l) (hl' : l ≤ 12) : hammingCoeff (2 ^ l) i =
    round ((2 : ℝ) ^ 16 * (27 / 50 - 23 / 50 * Real.cos (turnAngle i (2 ^ l - 1)))) := by
  rw [hammingCoeff_eq]
  exact hammingNumerator_div (cosTurn_near i (Nat.sub_pos_of_lt (Nat.one_lt_two_pow (by omega))))
    (windowClear hl hl' i).2

/-- A real number from 0 to 2^16 rounds to an integer from 0 to 2^16. -/
theorem round_unit_range {y : ℝ} (hlow : 0 ≤ y) (hhigh : y ≤ 2 ^ 16) : 0 ≤ round y ∧ round y ≤ 65536 := by
  rw [round_eq]
  refine ⟨Int.floor_nonneg.mpr (by linarith), Int.le_of_lt_add_one (Int.floor_lt.mpr ?_)⟩
  push_cast
  linarith

/-- Every coefficient is in UQ1.16 (42 R192). -/
theorem windowCoeff_range (w : Window) {l : Nat} (i : Nat) (hl : 1 ≤ l) (hl' : l ≤ 12) :
    0 ≤ windowCoeff w (2 ^ l) i ∧ windowCoeff w (2 ^ l) i ≤ 65536 := by
  have hcos := Real.cos_le_one (turnAngle i (2 ^ l - 1))
  have hcos' := Real.neg_one_le_cos (turnAngle i (2 ^ l - 1))
  cases w with
  | hann =>
    rw [windowCoeff, hannCoeff_eq_round hl hl']
    exact round_unit_range (by linarith) (by linarith)
  | hamming =>
    rw [windowCoeff, hammingCoeff_eq_round hl hl']
    exact round_unit_range (by linarith) (by linarith)

/-- Settles O28: each entry by the error bound of the cosine and the entry's margin. -/
theorem windowRomIsTheFormulaRounded : Obligations.WindowRomIsTheFormulaRounded := by
  intro l hl hl' i _
  have hangle : 2 * Real.pi * i / ((2 : ℝ) ^ l - 1) = turnAngle i (2 ^ l - 1) := by
    rw [turnAngle, Nat.cast_sub Nat.one_le_two_pow]
    push_cast
    rfl
  rw [hangle]
  exact ⟨hannCoeff_eq_round hl hl', hammingCoeff_eq_round hl hl', fun w => windowCoeff_range w i hl hl'⟩

/-- A coefficient depends on its cosine alone. -/
theorem windowCoeff_congr (w : Window) {n i j : Nat} (h : cosTurn i (n - 1) = cosTurn j (n - 1)) :
    windowCoeff w n i = windowCoeff w n j := by
  cases w with
  | hann => rw [windowCoeff, hannCoeff_eq, hannCoeff_eq, h]
  | hamming => rw [windowCoeff, hammingCoeff_eq, hammingCoeff_eq, h]

/-- The fixed-point cosine is symmetric about the half turn. -/
theorem cosTurn_sub {i den : Nat} (h : i ≤ den) : cosTurn (den - i) den = cosTurn i den := by
  have hfold : foldTurn (den - i) den = foldTurn i den := by
    obtain rfl | hpos := Nat.eq_zero_or_pos i
    · simp [foldTurn]
    · obtain rfl | hlt := Nat.eq_or_lt_of_le h
      · simp [foldTurn]
      · rw [foldTurn, foldTurn, Nat.mod_eq_of_lt (by omega), Nat.mod_eq_of_lt hlt, Nat.sub_sub_self h, min_comm]
  rw [cosTurn_eq, hfold, ← cosTurn_eq]

theorem cosTurn_zero (den : Nat) : cosTurn 0 den = 2 ^ 64 := by
  simp [cosTurn, cosQuarter, cosOctant, turnToRadians, taylorFactor, taylorTerms]

/-- The first coefficient of each window (42 R193). -/
theorem windowCoeff_zero (n : Nat) : windowCoeff .hann n 0 = 0 ∧ windowCoeff .hamming n 0 = 5243 := by
  rw [windowCoeff, windowCoeff, hannCoeff_eq, hammingCoeff_eq, cosTurn_zero]
  decide

/-- Settles O29: the symmetry is the cosine's, and it carries the first coefficients to the last. -/
theorem windowsAreSymmetric : Obligations.WindowsAreSymmetric := by
  intro w l i _ hi
  have symmetric (w : Window) {i : Nat} (hi : i < 2 ^ l) :
      windowCoeff w (2 ^ l) (2 ^ l - 1 - i) = windowCoeff w (2 ^ l) i :=
    windowCoeff_congr w (cosTurn_sub (by omega))
  obtain ⟨hann, hamming⟩ := windowCoeff_zero (2 ^ l)
  have hpos := Nat.two_pow_pos l
  exact ⟨symmetric w hi, hann, (symmetric .hann hpos).trans hann, hamming, (symmetric .hamming hpos).trans hamming⟩

/-! The twiddles. -/

theorem twiddleCos_eq_round (j : Nat) :
    twiddleCos j = round ((2 : ℝ) ^ 15 * Real.cos (2 * Real.pi * j / 4096)) :=
  twiddleNumerator_div (cosTurn_near j (by decide)) (twiddleClear j)

/-- The sine is the cosine three quarters of a turn later. -/
theorem twiddleSin_eq_round (j : Nat) :
    twiddleSin j = round ((2 : ℝ) ^ 15 * Real.sin (2 * Real.pi * j / 4096)) := by
  have hangle : turnAngle (j + 3072) 4096 = 2 * Real.pi * j / 4096 - Real.pi / 2 + 2 * Real.pi := by
    rw [turnAngle]
    push_cast
    ring
  have hnear := cosTurn_near (j + 3072) (den := 4096) (by decide)
  rw [hangle, Real.cos_add_two_pi, Real.cos_sub_pi_div_two] at hnear
  exact twiddleNumerator_div hnear (twiddleClear (j + 3072))

/-- Settles O30: each entry by the error bound of the cosine and the entry's margin. -/
theorem twiddleRomIsTheFormulaRounded : Obligations.TwiddleRomIsTheFormulaRounded :=
  fun j _ => ⟨twiddleCos_eq_round j, twiddleSin_eq_round j⟩

end Sys2Proof.Machine
end

section
/-! SUPPORT. No entry of the transform overflows (42 R199, R203): an entry of the load has magnitude at most 2^31, a
twiddle magnitude at most 33/32, and so each stage raises the greatest magnitude by a factor of at most 33/16. -/

namespace Sys2Proof.Machine

/-! Entries as complex numbers. -/

/-- An entry of the spectrum RAM as a complex number. -/
def Cplx.toComplex (x : Cplx) : ℂ := ⟨x.re, x.im⟩

theorem Cplx.toComplex_plus (x y : Cplx) : (x.plus y).toComplex = x.toComplex + y.toComplex := by
  apply Complex.ext <;> simp [Cplx.toComplex, Cplx.plus]

theorem Cplx.toComplex_minus (x y : Cplx) : (x.minus y).toComplex = x.toComplex - y.toComplex := by
  apply Complex.ext <;> simp [Cplx.toComplex, Cplx.minus]

theorem Cplx.sq_norm_toComplex (x : Cplx) : ‖x.toComplex‖ ^ 2 = ((x.re * x.re + x.im * x.im : Int) : ℝ) := by
  rw [Complex.sq_norm, Complex.normSq_apply, Cplx.toComplex]
  push_cast
  rfl

/-- A magnitude below 2^44, in the integers (42 R199). -/
theorem Cplx.sq_lt_of_norm_lt {x : Cplx} (h : ‖x.toComplex‖ < 2 ^ 44) : x.re * x.re + x.im * x.im < 2 ^ 88 := by
  have hsq : ‖x.toComplex‖ ^ 2 < (2 ^ 44) ^ 2 := pow_lt_pow_left₀ h (norm_nonneg _) (by decide)
  rw [Cplx.sq_norm_toComplex] at hsq
  have hcast : ((x.re * x.re + x.im * x.im : Int) : ℝ) < ((2 ^ 88 : Int) : ℝ) := by
    push_cast at hsq ⊢
    linarith
  exact_mod_cast hcast

/-- A component fits a 45-bit two's complement word (42 R199). -/
theorem component_range {x y : Int} (h : x * x + y * y < 2 ^ 88) : -(2 ^ 44) ≤ x ∧ x < 2 ^ 44 := by
  have habs : |x| < 2 ^ 44 := abs_lt_of_sq_lt_sq (by nlinarith [mul_self_nonneg y]) (by norm_num)
  obtain ⟨hlow, hhigh⟩ := abs_lt.mp habs
  exact ⟨hlow.le, hhigh⟩

/-! The twiddle multiply. -/

/-- The complex number a twiddle pair stands for, (c - i s) / 2^15 (42 R195, R198). -/
noncomputable def twiddleFactor (c s : Int) : ℂ := ⟨c / 2 ^ 15, -(s / 2 ^ 15)⟩

/-- Rounding costs at most a half. -/
theorem abs_roundShift_sub_le (x : Int) : |(roundShift x 15 : ℝ) - x / 2 ^ 15| ≤ 1 / 2 := by
  obtain ⟨hlow, hhigh⟩ := roundShift_spec x 14
  have hlowR : (2 : ℝ) ^ 15 * roundShift x 15 ≤ x + 2 ^ 14 := by exact_mod_cast hlow
  have hhighR : (x : ℝ) + 2 ^ 14 < 2 ^ 15 * roundShift x 15 + 2 ^ 15 := by exact_mod_cast hhigh
  rw [abs_le]
  constructor <;> linarith

/-- The twiddle multiply is the complex product up to its two roundings. -/
theorem norm_twMul_sub_le (b : Cplx) (c s : Int) :
    ‖(twMul b c s).toComplex - b.toComplex * twiddleFactor c s‖ ≤ 1 := by
  refine (Complex.norm_le_abs_re_add_abs_im _).trans ?_
  have hre := abs_roundShift_sub_le (b.re * c + b.im * s)
  have him := abs_roundShift_sub_le (b.im * c - b.re * s)
  have hre' : ((twMul b c s).toComplex - b.toComplex * twiddleFactor c s).re =
      (roundShift (b.re * c + b.im * s) 15 : ℝ) - ((b.re * c + b.im * s : Int) : ℝ) / 2 ^ 15 := by
    simp only [Cplx.toComplex, twMul, twiddleFactor, Complex.sub_re, Complex.mul_re]
    push_cast
    ring
  have him' : ((twMul b c s).toComplex - b.toComplex * twiddleFactor c s).im =
      (roundShift (b.im * c - b.re * s) 15 : ℝ) - ((b.im * c - b.re * s : Int) : ℝ) / 2 ^ 15 := by
    simp only [Cplx.toComplex, twMul, twiddleFactor, Complex.sub_im, Complex.mul_im]
    push_cast
    ring
  rw [hre', him']
  linarith

/-- A rounded twiddle over 2^15 has nearly the square of the cosine or sine it rounds. -/
theorem sq_div_le_of_round {c : Int} {x : ℝ} (hc : c = round ((2 : ℝ) ^ 15 * x)) (hx : |x| ≤ 1) :
    (c : ℝ) / 2 ^ 15 * (c / 2 ^ 15) ≤ x ^ 2 + 3 / 100 := by
  have hround : |(2 : ℝ) ^ 15 * x - c| ≤ 1 / 2 := hc ▸ abs_sub_round _
  obtain ⟨hlow, hhigh⟩ := abs_le.mp hround
  obtain ⟨hx, hx'⟩ := abs_le.mp hx
  have hdiff : |(c : ℝ) / 2 ^ 15 - x| ≤ 1 / 100 := abs_le.mpr ⟨by linarith, by linarith⟩
  have hsum : |(c : ℝ) / 2 ^ 15 + x| ≤ 3 := abs_le.mpr ⟨by linarith, by linarith⟩
  have hprod : |((c : ℝ) / 2 ^ 15 - x) * (c / 2 ^ 15 + x)| ≤ 1 / 100 * 3 := by
    rw [abs_mul]
    exact mul_le_mul hdiff hsum (abs_nonneg _) (by norm_num)
  linarith [(abs_le.mp hprod).2]

/-- Every pair of the twiddle ROM is near the unit circle (42 R195). -/
theorem norm_twiddleFactor_le (j : Nat) : ‖twiddleFactor (twiddleCos j) (twiddleSin j)‖ ≤ 33 / 32 := by
  have hcos := sq_div_le_of_round (twiddleCos_eq_round j) (Real.abs_cos_le_one _)
  have hsin := sq_div_le_of_round (twiddleSin_eq_round j) (Real.abs_sin_le_one _)
  have hunit := Real.cos_sq_add_sin_sq (2 * Real.pi * j / 4096)
  refine le_of_sq_le_sq ?_ (by norm_num)
  rw [Complex.sq_norm, Complex.normSq_apply, twiddleFactor, neg_mul_neg]
  linarith

/-! A stage. -/

theorem exists_of_mem_zipWith {α β γ : Type} {f : α → β → γ} {as : List α} {bs : List β} {z : γ}
    (hz : z ∈ List.zipWith f as bs) : ∃ a ∈ as, ∃ b ∈ bs, f a b = z := by
  obtain ⟨i, hi⟩ := List.mem_iff_getElem?.mp hz
  obtain ⟨a, b, ha, hb, hab⟩ := List.getElem?_zipWith_eq_some.mp hi
  exact ⟨a, List.mem_of_getElem? ha, b, List.mem_of_getElem? hb, hab⟩

theorem exists_of_mem_butterflyGroup {tws : List (Int × Int)} {us vs : List Cplx} {x : Cplx}
    (hx : x ∈ butterflyGroup tws us vs) : ∃ u ∈ us, ∃ v ∈ vs, ∃ tw ∈ tws,
      x = u.plus (twMul v tw.1 tw.2) ∨ x = u.minus (twMul v tw.1 tw.2) := by
  obtain hx | hx := List.mem_append.mp hx
  · obtain ⟨u, hu, t, ht, rfl⟩ := exists_of_mem_zipWith hx
    obtain ⟨v, hv, tw, htw, rfl⟩ := exists_of_mem_zipWith ht
    exact ⟨u, hu, v, hv, tw, htw, .inl rfl⟩
  · obtain ⟨u, hu, t, ht, rfl⟩ := exists_of_mem_zipWith hx
    obtain ⟨v, hv, tw, htw, rfl⟩ := exists_of_mem_zipWith ht
    exact ⟨u, hu, v, hv, tw, htw, .inr rfl⟩

/-- Every entry a stage writes is an output of a butterfly of two entries it read. -/
theorem exists_of_mem_stageGroups {h groups : Nat} {tws : List (Int × Int)} {a : List Cplx} {x : Cplx}
    (hx : x ∈ stageGroups h tws groups a) : ∃ u ∈ a, ∃ v ∈ a, ∃ tw ∈ tws,
      x = u.plus (twMul v tw.1 tw.2) ∨ x = u.minus (twMul v tw.1 tw.2) := by
  induction groups generalizing a with
  | zero => cases hx
  | succ groups ih =>
    obtain hx | hx := List.mem_append.mp hx
    · obtain ⟨u, hu, v, hv, tw, htw, hx⟩ := exists_of_mem_butterflyGroup hx
      exact ⟨u, List.mem_of_mem_take hu, v, List.mem_of_mem_drop (List.mem_of_mem_take hv), tw, htw, hx⟩
    · obtain ⟨u, hu, v, hv, tw, htw, hx⟩ := ih hx
      exact ⟨u, List.mem_of_mem_drop hu, v, List.mem_of_mem_drop hv, tw, htw, hx⟩

theorem exists_of_mem_stageTwiddles {h : Nat} {tw : Int × Int} (htw : tw ∈ stageTwiddles h) :
    ∃ j, tw = (twiddleCos j, twiddleSin j) := by
  obtain ⟨j, -, rfl⟩ := List.mem_map.mp htw
  exact ⟨_, rfl⟩

/-- A butterfly raises the magnitude by a factor of at most 33/16, its roundings included. -/
theorem norm_butterfly_le {B : ℝ} {u v x : Cplx} {j : Nat} (hB : 32 ≤ B) (hu : ‖u.toComplex‖ ≤ B)
    (hv : ‖v.toComplex‖ ≤ B) (hx : x = u.plus (twMul v (twiddleCos j) (twiddleSin j)) ∨
      x = u.minus (twMul v (twiddleCos j) (twiddleSin j))) : ‖x.toComplex‖ ≤ 33 / 16 * B := by
  have ht : ‖(twMul v (twiddleCos j) (twiddleSin j)).toComplex‖ ≤ B * (33 / 32) + 1 :=
    calc ‖(twMul v (twiddleCos j) (twiddleSin j)).toComplex‖
      _ ≤ ‖v.toComplex * twiddleFactor (twiddleCos j) (twiddleSin j)‖ + 1 := by
        linarith [norm_twMul_sub_le v (twiddleCos j) (twiddleSin j),
          norm_le_norm_add_norm_sub' (twMul v (twiddleCos j) (twiddleSin j)).toComplex
            (v.toComplex * twiddleFactor (twiddleCos j) (twiddleSin j))]
      _ ≤ B * (33 / 32) + 1 := by
        rw [norm_mul]
        gcongr
        exact norm_twiddleFactor_le j
  have hsum : ‖x.toComplex‖ ≤ ‖u.toComplex‖ + ‖(twMul v (twiddleCos j) (twiddleSin j)).toComplex‖ := by
    obtain rfl | rfl := hx
    · rw [Cplx.toComplex_plus]
      exact norm_add_le _ _
    · rw [Cplx.toComplex_minus]
      exact norm_sub_le _ _
  linarith

theorem norm_fftStage_le {B : ℝ} {l st : Nat} {a : List Cplx} (hB : 32 ≤ B) (ha : ∀ x ∈ a, ‖x.toComplex‖ ≤ B) :
    ∀ x ∈ fftStage l st a, ‖x.toComplex‖ ≤ 33 / 16 * B := by
  intro x hx
  obtain ⟨u, hu, v, hv, tw, htw, hx⟩ := exists_of_mem_stageGroups hx
  obtain ⟨j, rfl⟩ := exists_of_mem_stageTwiddles htw
  exact norm_butterfly_le hB (ha u hu) (ha v hv) hx

/-! The load. -/

/-- A windowed sample has magnitude at most 2^15 * 2^16 (42 R194). -/
theorem abs_windowed_le {w : Window} {l n : Nat} {v : Nat → Sample} (hl : 1 ≤ l) (hl' : l ≤ 12) {z : Int}
    (hz : z ∈ windowed w l (frameOf n v)) : |z| ≤ 2 ^ 31 := by
  obtain ⟨k, hk⟩ := List.mem_iff_getElem?.mp hz
  obtain ⟨x, i, hx, -, rfl⟩ := List.getElem?_zipWith_eq_some.mp hk
  obtain ⟨m, -, rfl⟩ := List.mem_map.mp (List.mem_of_getElem? hx)
  obtain ⟨hcoeff, hcoeff'⟩ := windowCoeff_range w i hl hl'
  have hsample : |sampleValue (v m)| ≤ 2 ^ 15 :=
    abs_le.mpr ⟨BitVec.le_toInt (v m), (BitVec.toInt_lt (x := v m)).le⟩
  rw [abs_mul, abs_of_nonneg hcoeff]
  calc |sampleValue (v m)| * windowCoeff w (2 ^ l) i
    _ ≤ 2 ^ 15 * 65536 := mul_le_mul hsample hcoeff' hcoeff (by norm_num)
    _ = 2 ^ 31 := by norm_num

theorem norm_loadSpectrum_le {l : Nat} {xw : List Int} (h : ∀ z ∈ xw, |z| ≤ 2 ^ 31) :
    ∀ x ∈ loadSpectrum l xw, ‖x.toComplex‖ ≤ 2 ^ 31 := by
  intro x hx
  obtain ⟨n, -, rfl⟩ := List.mem_map.mp hx
  have hentry : |xw.getD (bitrev l n) 0| ≤ 2 ^ 31 := by
    rw [List.getD_eq_getElem?_getD]
    cases hz : xw[bitrev l n]? with
    | none => norm_num
    | some z => exact h z (List.mem_of_getElem? hz)
  have hreal : Cplx.toComplex ⟨xw.getD (bitrev l n) 0, 0⟩ = ((xw.getD (bitrev l n) 0 : Int) : ℂ) := by
    apply Complex.ext <;> simp [Cplx.toComplex]
  rw [hreal, Complex.norm_intCast]
  exact_mod_cast hentry

/-! Every point of the transform. -/

theorem norm_fftStages_le {w : Window} {l n : Nat} {v : Nat → Sample} (hl : 1 ≤ l) (hl' : l ≤ 12) (st : Nat) :
    ∀ x ∈ fftStages l st (loadSpectrum l (windowed w l (frameOf n v))),
      ‖x.toComplex‖ ≤ (33 / 16) ^ st * 2 ^ 31 := by
  induction st with
  | zero => simpa [fftStages] using norm_loadSpectrum_le (l := l) fun z hz => abs_windowed_le hl hl' hz
  | succ st ih =>
    have hgrow : (1 : ℝ) ≤ (33 / 16) ^ st := one_le_pow₀ (by norm_num)
    rw [pow_succ', mul_assoc]
    exact norm_fftStage_le (by linarith) ih

theorem sq_fftStages_lt {w : Window} {l st n : Nat} {v : Nat → Sample} (hl : 1 ≤ l) (hl' : l ≤ 12) (hst : st ≤ l) :
    ∀ x ∈ fftStages l st (loadSpectrum l (windowed w l (frameOf n v))), x.re * x.re + x.im * x.im < 2 ^ 88 := by
  intro x hx
  refine Cplx.sq_lt_of_norm_lt ((norm_fftStages_le hl hl' st x hx).trans_lt ?_)
  calc (33 / 16 : ℝ) ^ st * 2 ^ 31
    _ ≤ (33 / 16) ^ 12 * 2 ^ 31 := by
      gcongr
      · norm_num
      · exact hst.trans hl'
    _ < 2 ^ 44 := by norm_num

/-- Settles O34: after at most twelve stages the magnitude is at most (33/16)^12 * 2^31, below 2^44. -/
theorem transformNeverOverflows : Obligations.TransformNeverOverflows := by
  intro w l st v hl hl' hst x hx
  have hsq := sq_fftStages_lt hl hl' hst x hx
  obtain ⟨hre, hre'⟩ := component_range hsq
  obtain ⟨him, him'⟩ := component_range (add_comm (x.re * x.re) _ ▸ hsq)
  exact ⟨hsq, hre, hre', him, him'⟩

/-- Settles O36: the peak's power is the squared magnitude of an entry of the transform. -/
theorem peakMagnitudeFits : Obligations.PeakMagnitudeFits := by
  intro w l v hl hl'
  rcases peak : spectralPeak w l (frameOf (2 ^ l) v) with ⟨k, mag⟩
  obtain ⟨P, ⟨hk, -⟩, rfl⟩ := spectralPeak_spec w hl _ peak
  obtain ⟨-, x, hx, rfl⟩ := getElem?_lowerPowers.mp hk
  have hpower : x.power < 2 ^ 88 := by
    have hsq := sq_fftStages_lt hl hl' le_rfl x (List.mem_of_getElem? hx)
    rw [Cplx.power]
    omega
  have hmag : isqrt x.power * isqrt x.power ≤ x.power := (isqrt_spec _).1
  change isqrt x.power < 2 ^ 44
  nlinarith

end Sys2Proof.Machine
end

section
/-! SUPPORT. The note mapper's operand, key, pitch class and octave (43 R234, R236, R238 to R240), and MAPNOTE from CMD
write to completion (43 R244). -/

namespace Sys2Proof.Machine

/-! The operand. -/

theorem lt_two_pow_notePos {v : Nat} : v < 2 ^ (notePos v + 1) := Nat.lt_log2_self

/-- The mantissa's leading one is bit 32 (43 R234). -/
theorem noteMant_bounds {v : Nat} (hpos : 0 < v) (hlt : v < 2 ^ 31) : 2 ^ 32 ≤ noteMant v ∧ noteMant v < 2 ^ 33 := by
  have hp := notePos_le hpos hlt
  have hshift : 2 ^ notePos v * 2 ^ (32 - notePos v) = 2 ^ 32 := by
    rw [← pow_add]
    congr 1
    omega
  have hlow := Nat.mul_le_mul_right (2 ^ (32 - notePos v)) (two_pow_notePos_le hpos)
  have hhigh := Nat.mul_lt_mul_of_pos_right (lt_two_pow_notePos (v := v)) (Nat.two_pow_pos (32 - notePos v))
  rw [hshift] at hlow
  rw [pow_succ, mul_right_comm, hshift] at hhigh
  exact ⟨hlow, hhigh⟩

/-- The operand is its mantissa scaled by the exponent that the shift took out (43 R234). -/
theorem cast_eq_noteMant_mul {v : Nat} (hpos : 0 < v) (hlt : v < 2 ^ 31) :
    (v : ℝ) = noteMant v * (2 : ℝ) ^ ((notePos v : ℤ) - 32) := by
  have hp := notePos_le hpos hlt
  have hexp : (notePos v : ℤ) - 32 = -((32 - notePos v : ℕ) : ℤ) := by omega
  rw [noteMant, hexp, zpow_neg, zpow_natCast]
  push_cast
  exact (mul_inv_cancel_right₀ (by positivity) _).symm

/-- Settles O38: `noteMant_bounds` and `cast_eq_noteMant_mul`, the frequency being v / 2^12. -/
theorem operandNormalizes : Obligations.OperandNormalizes := by
  intro v hpos hlt
  obtain ⟨hlow, hhigh⟩ := noteMant_bounds hpos hlt
  refine ⟨notePos_le hpos hlt, two_pow_notePos_le hpos, lt_two_pow_notePos, hlow, hhigh,
    (Nat.shiftLeft_eq _ _).symm, ?_⟩
  have hexp : (2 : ℝ) ^ ((notePos v : ℤ) - 44) = 2 ^ ((notePos v : ℤ) - 32) / 4096 := by
    rw [show (notePos v : ℤ) - 44 = (notePos v : ℤ) - 32 - 12 by ring, zpow_sub₀ two_ne_zero]
    norm_num
  rw [hexp, ← mul_div_assoc, ← cast_eq_noteMant_mul hpos hlt]

/-! The key. -/

/-- A count of 12 names the same key in its own octave as step 0 of the next one does (43 R236, R237). -/
theorem keyOf_eq (v : Nat) : keyOf v = 12 * (notePos v : Int) - 200 + (noteCount v : Int) := by
  by_cases h : noteCount v = 12
  · simp only [keyOf, noteStep, h, if_true]
    omega
  · simp only [keyOf, noteStep, h, if_false]

theorem noteStep_snd_lt (v : Nat) : (noteStep v).2 < 12 := by
  obtain ⟨hc, h⟩ | h := noteStep_cases v
  · rwa [h]
  · simp [h]

theorem noteStep_fst_le {v : Nat} (hpos : 0 < v) (hlt : v < 2 ^ 31) : (noteStep v).1 ≤ 31 := by
  have hp := notePos_le hpos hlt
  obtain ⟨-, h⟩ | h := noteStep_cases v
  all_goals
    simp only [h]
    omega

/-- The key has one step of one octave: q and rr are the quotient and remainder of K + 200 by 12 (43 R236). -/
theorem noteStep_eq_of_key {v q rr : Nat} (hrr : rr < 12) (hkey : keyOf v = 12 * (q : Int) - 200 + (rr : Int)) :
    noteStep v = (q, rr) := by
  have hlt := noteStep_snd_lt v
  rw [keyOf] at hkey
  ext <;> dsimp only <;> omega

/-- Settles O42: the two ends by evaluation, the ranges from the exponent's and the count's. -/
theorem keyAndOctaveRange : Obligations.KeyAndOctaveRange := by
  refine ⟨by decide, by decide, fun v hpos hlt => ?_⟩
  obtain ⟨hlow, hhigh⟩ := keyOf_bounds hpos hlt
  have hoct : octaveOf v = keyOf v / 12 := rfl
  exact ⟨hlow, hhigh, noteStep_fst_le hpos hlt, by omega, by omega⟩

/-! Pitch class, octave and name. -/

/-- K + 204 = 12 q + rr + 4, with rr + 4 the pitch class's place in the octave (43 R239). -/
theorem pitchClassOf_eq_step (v : Nat) : pitchClassOf v = ((noteStep v).2 + 4) % 12 := by
  have hpc := pitchClassOf_eq v
  rw [keyOf] at hpc
  omega

theorem octaveOf_eq_step (v : Nat) :
    octaveOf v = ((noteStep v).1 : Int) - 17 + ((((noteStep v).2 + 4) / 12 : Nat) : Int) := by
  rw [octaveOf, keyOf]
  omega

theorem noteNames_getElem? (v : Nat) : noteNames[pitchClassOf v]? = some (nameOf v) := by
  rw [nameOf, List.getD_eq_getElem?_getD, List.getElem?_eq_getElem (pitchClassOf_lt v)]
  rfl

/-- Settles O43: division with remainder of the key, and the lookup in the name ROM. -/
theorem pitchClassAndOctaveFromKey : Obligations.PitchClassAndOctaveFromKey := by
  intro v _ _
  have hdiv : keyOf v = 12 * octaveOf v + pitchClassOf v := by
    rw [pitchClassOf_eq, octaveOf, Int.mul_ediv_add_emod]
  exact ⟨hdiv, Nat.le_of_lt_succ (pitchClassOf_lt v), pitchClassOf_eq_step v, octaveOf_eq_step v, noteNames_getElem? v⟩

/-! MAPNOTE. -/

/-- The CMD write of MAPNOTE (43 R244): BUSY_CMD or acceptance. -/
theorem exec_mapnote (s : State) :
    exec .mapnote s = .next (if s.busy = true then s.raise .busyCmd else s.accept .mapnote) := rfl

theorem mapnoteResults_of_zero {s : State} (h : s.freqOperand = 0) :
    mapnoteResults s = { Results.zero with code := .invalidFreq } := if_pos h

theorem mapnoteResults_of_ne_zero {s : State} (h : s.freqOperand ≠ 0) :
    mapnoteResults s = Results.zero.withNote s.freqOperand := if_neg h

/-- Settles O25: the two cases of the CMD write, and the engine's turn for a zero operand and for any other. -/
theorem mapNoteMapsTheOperand : Obligations.MapNoteMapsTheOperand := by
  refine fun s => ⟨rfl, fun busy => ?_, fun idle => ⟨?_, _, step_of_accepted (op := .mapnote) rfl, fun zero => ?_,
    fun nonzero => ?_⟩⟩
  · rw [exec_mapnote, if_pos busy]
    rfl
  · rw [exec_mapnote, if_neg (by simp [State.busy_of_idle idle])]
    rfl
  · have hzero : s.freqOperand = 0 := by rw [State.freqOperand, zero]; rfl
    rw [mapnoteResults_of_zero hzero]
  · have hnonzero : s.freqOperand ≠ 0 := fun h => nonzero (BitVec.eq_of_toNat_eq h)
    have hfreq : (Results.zero.withNote s.freqOperand).freq = s.mapFreq := by
      simp [Results.withNote, State.freqOperand]
    have hregisters := Results.zero.withNote_registers (v := s.freqOperand) s.mapFreq.isLt
    rw [hfreq] at hregisters
    rw [mapnoteResults_of_ne_zero hnonzero]
    exact ⟨by rw [← hfreq]; rfl, hregisters⟩

end Sys2Proof.Machine
end

section
/-! SUPPORT. The equal-tempered scale over the reals (43 R230, R233), and the two ROMs of the note mapper as its values
(43 R235, R241). The 24th power of every frequency of the scale that the ROMs name is a whole number, so that each entry
is compared with its formula exactly, by a comparison of natural numbers. -/

namespace Sys2Proof.Machine

/-! The scale. -/

/-- 440 * 2^((k - 49)/12) hertz in units of 2^-12 Hz, for any real key: a half-integer key is the edge between two keys
(43 R230, R233). -/
noncomputable def idealFreq (k : ℝ) : ℝ := 2 ^ 12 * 440 * (2 : ℝ) ^ ((k - 49) / 12)

theorem idealFreq_pos (k : ℝ) : 0 < idealFreq k := by
  unfold idealFreq
  positivity

theorem idealFreq_add (k d : ℝ) : idealFreq (k + d) = idealFreq k * (2 : ℝ) ^ (d / 12) := by
  rw [idealFreq, idealFreq, mul_assoc (2 ^ 12 * 440), ← Real.rpow_add two_pos]
  congr 2
  ring

/-- Twelve keys are an octave (43 R243). -/
theorem idealFreq_add_octaves (k : ℝ) (n : ℤ) : idealFreq (k + 12 * n) = idealFreq k * (2 : ℝ) ^ n := by
  rw [idealFreq_add, mul_div_cancel_left₀ _ (by norm_num), Real.rpow_intCast]

/-- The keys of the scale are the real logarithms of its frequencies (43 R230). -/
theorem idealFreq_le_iff {k x : ℝ} (hx : 0 < x) :
    idealFreq k ≤ x ↔ k ≤ 12 * Real.logb 2 (x / 4096 / 440) + 49 := by
  have hlog := Real.le_logb_iff_rpow_le one_lt_two (x := (k - 49) / 12) (y := x / 4096 / 440) (by positivity)
  rw [← tsub_le_iff_right, ← div_le_iff₀' (by norm_num), hlog, idealFreq, div_div, le_div_iff₀' (by norm_num)]
  norm_num

/-- From key 49 up in half steps, the frequencies have whole 24th powers. -/
theorem idealFreq_pow (e : ℕ) : idealFreq (49 + e / 2) ^ 24 = ((1802240 ^ 24 * 2 ^ e : ℕ) : ℝ) := by
  have hroot : ((2 : ℝ) ^ ((49 + (e : ℝ) / 2 - 49) / 12)) ^ 24 = 2 ^ e := by
    rw [← Real.rpow_mul_natCast zero_le_two, ← Real.rpow_natCast]
    congr 1
    push_cast
    ring
  rw [idealFreq, mul_pow, hroot]
  push_cast
  norm_num

section

variable {a c e : ℕ}

theorem lt_mul_idealFreq (h : a ^ 24 < c ^ 24 * (1802240 ^ 24 * 2 ^ e)) : (a : ℝ) < c * idealFreq (49 + e / 2) := by
  have hpos := idealFreq_pos (49 + e / 2)
  refine lt_of_pow_lt_pow_left₀ 24 (by positivity) ?_
  rw [mul_pow, idealFreq_pow]
  exact_mod_cast h

theorem mul_idealFreq_lt (h : c ^ 24 * (1802240 ^ 24 * 2 ^ e) < a ^ 24) : c * idealFreq (49 + e / 2) < (a : ℝ) := by
  refine lt_of_pow_lt_pow_left₀ 24 (by positivity) ?_
  rw [mul_pow, idealFreq_pow]
  exact_mod_cast h

end

/-! The threshold ROM. -/

/-- Each threshold is less than 1 above its formula (43 R235). -/
theorem noteThresholds_pow : ∀ j < 12,
    (noteThresholds.getD j 0 - 1) ^ 24 < (2 ^ 11) ^ 24 * (1802240 ^ 24 * 2 ^ (2 * j + 7)) ∧
      (2 ^ 11) ^ 24 * (1802240 ^ 24 * 2 ^ (2 * j + 7)) < noteThresholds.getD j 0 ^ 24 := by
  decide

theorem noteThresholds_range : ∀ j < 12, 2 ^ 32 < noteThresholds.getD j 0 ∧ noteThresholds.getD j 0 < 2 ^ 33 := by
  decide

/-- A threshold is the edge above step j's key, rounded up, for a mantissa, which is 2^11 times an operand with p = 21
(43 R235, R237). -/
theorem noteThresholds_eq_ceil {j : ℕ} (hj : j < 12) :
    ((noteThresholds.getD j 0 : ℕ) : ℤ) = ⌈(2 : ℝ) ^ 11 * idealFreq (j + 52 + 1 / 2)⌉ := by
  obtain ⟨hbelow, habove⟩ := noteThresholds_pow j hj
  have hpos : 1 ≤ noteThresholds.getD j 0 := by
    have := (noteThresholds_range j hj).1
    omega
  have hkey : (49 : ℝ) + ((2 * j + 7 : ℕ) : ℝ) / 2 = j + 52 + 1 / 2 := by
    push_cast
    ring
  have hlow := lt_mul_idealFreq hbelow
  have hhigh := mul_idealFreq_lt habove
  rw [hkey] at hlow hhigh
  rw [Nat.cast_sub hpos, Nat.cast_one] at hlow
  rw [Nat.cast_pow] at hlow hhigh
  exact (Int.ceil_eq_iff.mpr ⟨hlow, hhigh.le⟩).symm

/-- The edge as 43 R235 writes it. -/
theorem thresholdFormula_eq (j : ℝ) :
    (2 : ℝ) ^ 32 * 440 * (2 : ℝ) ^ ((j - 104.5) / 12) = 2 ^ 11 * idealFreq (j + 52 + 1 / 2) := by
  have hkey : (j + 52 + 1 / 2 - 49) / 12 = (j - 104.5) / 12 + (9 : ℕ) := by
    push_cast
    ring
  rw [idealFreq, hkey, Real.rpow_add two_pos, Real.rpow_natCast]
  ring

/-- Settles O39: the ceiling from `noteThresholds_eq_ceil`, the order by evaluation. -/
theorem thresholdRomIsTheFormula : Obligations.ThresholdRomIsTheFormula := by
  have increasing : ∀ j < 11, noteThresholds.getD j 0 < noteThresholds.getD (j + 1) 0 := by decide
  refine ⟨rfl, fun j hj => ?_⟩
  obtain ⟨hlow, hhigh⟩ := noteThresholds_range j hj
  rw [thresholdFormula_eq]
  exact ⟨noteThresholds_eq_ceil hj, hlow, hhigh, increasing j⟩

/-! The canonical-frequency ROM. -/

/-- Twice an entry is less than 1 from twice its formula on either side (43 R241). -/
theorem canonicalFreqs_pow : ∀ r < 12,
    (2 * canonicalFreqs.getD r 0 - 1) ^ 24 < (2 ^ 10) ^ 24 * (1802240 ^ 24 * 2 ^ (2 * r + 6)) ∧
      (2 ^ 10) ^ 24 * (1802240 ^ 24 * 2 ^ (2 * r + 6)) < (2 * canonicalFreqs.getD r 0 + 1) ^ 24 := by
  decide

theorem canonicalFreqs_pos : ∀ r < 12, 0 < canonicalFreqs.getD r 0 := by decide

/-- An entry is nearer than a half to the frequency of step r's key, in units of which an operand with q = 30 has one
(43 R241). -/
theorem abs_canonicalFreqs_sub_lt {r : ℕ} (hr : r < 12) :
    |((canonicalFreqs.getD r 0 : ℕ) : ℝ) - 2 ^ 9 * idealFreq (r + 52)| < 1 / 2 := by
  obtain ⟨hbelow, habove⟩ := canonicalFreqs_pow r hr
  have hpos : 1 ≤ 2 * canonicalFreqs.getD r 0 := by
    have := canonicalFreqs_pos r hr
    omega
  have hkey : (49 : ℝ) + ((2 * r + 6 : ℕ) : ℝ) / 2 = r + 52 := by
    push_cast
    ring
  have hlow := lt_mul_idealFreq hbelow
  have hhigh := mul_idealFreq_lt habove
  rw [hkey] at hlow hhigh
  push_cast [hpos] at hlow hhigh
  rw [abs_lt]
  constructor <;> linarith

/-- The frequency as 43 R241 writes it. -/
theorem canonicalFormula_eq (r : ℝ) :
    (2 : ℝ) ^ 21 * 440 * (2 : ℝ) ^ ((r + 3) / 12) = 2 ^ 9 * idealFreq (r + 52) := by
  rw [idealFreq, show r + 52 - 49 = r + 3 by ring]
  ring

theorem canonicalFreqs_eq_round {r : ℕ} (hr : r < 12) :
    ((canonicalFreqs.getD r 0 : ℕ) : ℤ) = round ((2 : ℝ) ^ 9 * idealFreq (r + 52)) := by
  obtain ⟨hlow, hhigh⟩ := abs_lt.mp (abs_canonicalFreqs_sub_lt hr)
  refine (round_eq_iff.mpr ⟨?_, ?_⟩).symm
  all_goals
    rw [Int.cast_natCast]
    linarith

/-! NF of a step. -/

section

variable {v q rr : ℕ} (hstep : noteStep v = (q, rr))
include hstep

theorem canonicalOf_of_lt (hq : q < 30) :
    canonicalOf v = roundShift (canonicalFreqs.getD rr 0 : ℕ) (30 - q) := by
  simp only [canonicalOf, hstep, if_pos hq]

theorem canonicalOf_of_le (hq : 30 ≤ q) :
    canonicalOf v = (canonicalFreqs.getD rr 0 : ℕ) * 2 ^ (q - 30) := by
  simp only [canonicalOf, hstep, if_neg (Nat.not_lt_of_le hq)]

end

/-- Settles O40: the ROM from `canonicalFreqs_eq_round`, and NF by the one step (q, rr) that the key names. -/
theorem canonicalRomIsTheFormula : Obligations.CanonicalRomIsTheFormula := by
  refine ⟨rfl, fun r hr => ?_, fun v q rr _ _ hrr hkey => ?_⟩
  · rw [canonicalFormula_eq]
    exact canonicalFreqs_eq_round hr
  have hstep := noteStep_eq_of_key hrr hkey
  split_ifs with hq
  · rw [canonicalOf_of_lt hstep hq, show 30 - q = 29 - q + 1 by omega]
    rfl
  · exact canonicalOf_of_le hstep (Nat.le_of_not_lt hq)

end Sys2Proof.Machine
end

section
/-! SUPPORT. The LUT datapath against the real scale: the operand lies between the edges of its key (43 R237), and the
canonical frequency is within one raw unit of the key's (43 R241), so that the deviation is small (43 R242); doubling
the operand moves both by an octave (43 R243). -/

namespace Sys2Proof.Machine

/-! The count. -/

/-- In a rising list, the entries a number reaches are the first ones. -/
theorem lt_countP_iff {th : List ℕ} (rising : th.Pairwise (· < ·)) (m : ℕ) {j : ℕ} (hj : j < th.length) :
    j < th.countP (fun t => decide (t ≤ m)) ↔ th.getD j 0 ≤ m := by
  induction th generalizing j with
  | nil => exact absurd hj (Nat.not_lt_zero j)
  | cons t th ih =>
    obtain ⟨above, rising⟩ := List.pairwise_cons.mp rising
    by_cases reached : t ≤ m
    · rw [List.countP_cons_of_pos (by simpa using reached)]
      cases j with
      | zero => simpa using reached
      | succ j => simpa using ih rising (Nat.lt_of_succ_lt_succ hj)
    · have noneReached : (t :: th).countP (fun t => decide (t ≤ m)) = 0 :=
        List.countP_eq_zero.mpr fun u hu => by
          have : t ≤ u := (List.mem_cons.mp hu).elim (·.ge) fun hu => (above u hu).le
          simp only [decide_eq_true_eq]
          omega
      have hle : t ≤ (t :: th).getD j 0 := by
        cases j with
        | zero => exact le_rfl
        | succ j =>
          rw [List.getD_cons_succ, List.getD_eq_getElem _ _ (Nat.lt_of_succ_lt_succ hj)]
          exact (above _ (List.getElem_mem _)).le
      omega

/-- The mantissa is at or above the edge above step j's key exactly when its count is above j (43 R237). -/
theorem lt_noteCount_iff {v j : ℕ} (hj : j < 12) :
    j < noteCount v ↔ (2 : ℝ) ^ 11 * idealFreq (j + 52 + 1 / 2) ≤ noteMant v := by
  have hcount : j < noteCount v ↔ noteThresholds.getD j 0 ≤ noteMant v := lt_countP_iff (by decide) _ hj
  have hceil := Int.ceil_le (a := (2 : ℝ) ^ 11 * idealFreq (j + 52 + 1 / 2)) (z := noteMant v)
  rw [← noteThresholds_eq_ceil hj, Int.ofNat_le] at hceil
  exact hcount.trans hceil

/-! The edges of the key. -/

/-- No mantissa is below the edge under step 0's key, or above the edge over the next octave's step 0 (43 R237). -/
theorem noteMant_range_between_edges :
    (2 : ℝ) ^ 11 * idealFreq (52 - 1 / 2) < 2 ^ 32 ∧ (2 : ℝ) ^ 33 < 2 ^ 11 * idealFreq (64 + 1 / 2) := by
  have hlow := mul_idealFreq_lt (a := 2 ^ 32) (c := 2 ^ 11) (e := 5) (by norm_num)
  have hhigh := lt_mul_idealFreq (a := 2 ^ 33) (c := 2 ^ 11) (e := 31) (by norm_num)
  rw [show (49 : ℝ) + (5 : ℕ) / 2 = 52 - 1 / 2 by norm_num] at hlow
  rw [show (49 : ℝ) + (31 : ℕ) / 2 = 64 + 1 / 2 by norm_num] at hhigh
  exact ⟨by exact_mod_cast hlow, by exact_mod_cast hhigh⟩

/-- The mantissa lies between the edges of the key of its count (43 R237). -/
theorem noteMant_edges {v : ℕ} (hpos : 0 < v) (hlt : v < 2 ^ 31) :
    (2 : ℝ) ^ 11 * idealFreq (noteCount v + 52 - 1 / 2) ≤ noteMant v ∧
      (noteMant v : ℝ) < 2 ^ 11 * idealFreq (noteCount v + 52 + 1 / 2) := by
  obtain ⟨hmant, hmant'⟩ := noteMant_bounds hpos hlt
  obtain ⟨hlow, hhigh⟩ := noteMant_range_between_edges
  have hcount := noteCount_le v
  constructor
  · rcases hr : noteCount v with _ | j
    · have hmantR : (2 : ℝ) ^ 32 ≤ noteMant v := by exact_mod_cast hmant
      rw [Nat.cast_zero, zero_add]
      exact hlow.le.trans hmantR
    · have hreached := (lt_noteCount_iff (v := v) (j := j) (by omega)).mp (by omega)
      rwa [show ((j + 1 : ℕ) : ℝ) + 52 - 1 / 2 = j + 52 + 1 / 2 by push_cast; ring]
  · obtain hr | hr := Nat.lt_or_eq_of_le hcount
    · exact not_le.mp fun hreached => absurd ((lt_noteCount_iff hr).mpr hreached) (Nat.lt_irrefl _)
    · have hmantR : (noteMant v : ℝ) < 2 ^ 33 := by exact_mod_cast hmant'
      rw [hr, show ((12 : ℕ) : ℝ) + 52 + 1 / 2 = 64 + 1 / 2 by norm_num]
      exact hmantR.trans hhigh

/-- The operand lies between the edges of its key (43 R237). -/
theorem keyOf_edges {v : ℕ} (hpos : 0 < v) (hlt : v < 2 ^ 31) :
    idealFreq (keyOf v - 1 / 2) ≤ v ∧ (v : ℝ) < idealFreq (keyOf v + 1 / 2) := by
  have scaled (d : ℝ) :
      idealFreq (keyOf v + d) = 2 ^ 11 * idealFreq (noteCount v + 52 + d) * (2 : ℝ) ^ ((notePos v : ℤ) - 32) := by
    have hkey : (keyOf v : ℝ) + d = noteCount v + 52 + d + 12 * ((notePos v : ℤ) - 32 + 11 : ℤ) := by
      rw [keyOf_eq]
      push_cast
      ring
    rw [hkey, idealFreq_add_octaves, zpow_add₀ two_ne_zero]
    norm_cast
    ring
  obtain ⟨hlow, hhigh⟩ := noteMant_edges hpos hlt
  rw [sub_eq_add_neg] at hlow ⊢
  rw [scaled, scaled, cast_eq_noteMant_mul hpos hlt]
  exact ⟨by gcongr, by gcongr⟩

/-- Settles O41: the logarithm of an operand between the edges of its key rounds to the key. -/
theorem lutKeyIsTheIdealKey : Obligations.LutKeyIsTheIdealKey := by
  intro v hpos hlt
  have hv : (0 : ℝ) < v := by exact_mod_cast hpos
  obtain ⟨hlow, hhigh⟩ := keyOf_edges hpos hlt
  rw [idealFreq_le_iff hv] at hlow
  rw [← not_le, idealFreq_le_iff hv, not_le] at hhigh
  rw [← sub_eq_iff_eq_add, eq_comm, round_eq_iff]
  push_cast
  constructor <;> linarith

/-! The canonical frequency. -/

/-- Rounding a shift moves a number by at most a half. -/
theorem abs_roundShift_sub_div_le (x : ℤ) (n : ℕ) : |(roundShift x n : ℝ) - x / 2 ^ n| ≤ 1 / 2 := by
  cases n with
  | zero => simp [roundShift]
  | succ n =>
    have hhalf : ((x : ℝ) + 2 ^ n) / 2 ^ (n + 1) = x / 2 ^ (n + 1) + 1 / 2 := by
      rw [pow_succ]
      field_simp
    rw [roundShift_eq_floor, hhalf, ← round_eq, abs_sub_comm]
    exact abs_sub_round _

section

variable {v q rr : ℕ} (hstep : noteStep v = (q, rr))
include hstep

/-- From q = 30 on nothing of the ROM's entry is lost (43 R241). -/
theorem canonicalOf_eq_entry (hq : 30 ≤ q) :
    (canonicalOf v : ℝ) = (canonicalFreqs.getD rr 0 : ℕ) * (2 : ℝ) ^ ((q : ℤ) - 30) := by
  rw [canonicalOf_of_le hstep hq, show (q : ℤ) - 30 = (q - 30 : ℕ) by omega, zpow_natCast]
  push_cast
  rfl

/-- NF is the ROM's entry scaled to the operand's octave, rounded once (43 R241). -/
theorem abs_canonicalOf_sub_entry_le :
    |(canonicalOf v : ℝ) - (canonicalFreqs.getD rr 0 : ℕ) * (2 : ℝ) ^ ((q : ℤ) - 30)| ≤ 1 / 2 := by
  obtain hq | hq := Nat.lt_or_ge q 30
  · rw [canonicalOf_of_lt hstep hq, show (q : ℤ) - 30 = -(30 - q : ℕ) by omega, zpow_neg, zpow_natCast,
      ← div_eq_mul_inv]
    simpa using abs_roundShift_sub_div_le (canonicalFreqs.getD rr 0 : ℕ) (30 - q)
  · rw [canonicalOf_eq_entry hstep hq, sub_self, abs_zero]
    norm_num

/-- The key's frequency is the formula of the ROM's entry scaled to the operand's octave (43 R241). -/
theorem idealFreq_keyOf : idealFreq (keyOf v) = 2 ^ 9 * idealFreq (rr + 52) * (2 : ℝ) ^ ((q : ℤ) - 30) := by
  have hkey : (keyOf v : ℝ) = rr + 52 + 12 * ((q : ℤ) - 30 + 9 : ℤ) := by
    rw [keyOf, hstep]
    push_cast
    ring
  rw [hkey, idealFreq_add_octaves, zpow_add₀ two_ne_zero]
  norm_cast
  ring

end

/-- Below q = 30 the entry's error is at most halved before the one rounding; from 30 on there is no rounding and the
entry's error is at most doubled (43 R241). -/
theorem abs_canonicalOf_sub_lt {v : ℕ} (hpos : 0 < v) (hlt : v < 2 ^ 31) :
    |(canonicalOf v : ℝ) - idealFreq (keyOf v)| < 1 := by
  rcases hstep : noteStep v with ⟨q, rr⟩
  have hq31 : q ≤ 31 := by simpa [hstep] using noteStep_fst_le hpos hlt
  have hrr : rr < 12 := by simpa [hstep] using noteStep_snd_lt v
  have hentry : |(canonicalFreqs.getD rr 0 : ℕ) * (2 : ℝ) ^ ((q : ℤ) - 30) - idealFreq (keyOf v)| <
      1 / 2 * (2 : ℝ) ^ ((q : ℤ) - 30) := by
    rw [idealFreq_keyOf hstep, ← sub_mul, abs_mul, abs_of_pos (a := (2 : ℝ) ^ _) (by positivity)]
    gcongr
    exact abs_canonicalFreqs_sub_lt hrr
  have hscale {n : ℤ} (h : (q : ℤ) - 30 ≤ n) : (2 : ℝ) ^ ((q : ℤ) - 30) ≤ 2 ^ n := zpow_le_zpow_right₀ one_le_two h
  obtain hq | hq := Nat.lt_or_ge q 30
  · have hrounded := abs_canonicalOf_sub_entry_le hstep
    have hhalf := hscale (n := -1) (by omega)
    rw [zpow_neg_one] at hhalf
    linarith [abs_sub_le (canonicalOf v : ℝ) ((canonicalFreqs.getD rr 0 : ℕ) * (2 : ℝ) ^ ((q : ℤ) - 30))
      (idealFreq (keyOf v))]
  · have hdouble := hscale (n := 1) (by omega)
    rw [zpow_one] at hdouble
    rw [canonicalOf_eq_entry hstep hq]
    linarith

/-- Settles O44: `abs_canonicalOf_sub_lt`, and the range from `canonicalOf_bounds`. -/
theorem canonicalFrequencyNearIdeal : Obligations.CanonicalFrequencyNearIdeal := by
  intro v hpos hlt
  have hrange := canonicalOf_bounds hpos hlt
  exact ⟨abs_canonicalOf_sub_lt hpos hlt, by omega, by omega⟩

/-! The deviation. -/

/-- The ratio of half a semitone. -/
noncomputable def halfSemitone : ℝ := (2 : ℝ) ^ ((1 : ℝ) / 24)

theorem halfSemitone_bounds : 1 < halfSemitone ∧ halfSemitone < 1.02935 := by
  refine ⟨Real.one_lt_rpow one_lt_two (by norm_num), lt_of_pow_lt_pow_left₀ 24 (by norm_num) ?_⟩
  rw [halfSemitone, ← Real.rpow_mul_natCast zero_le_two]
  norm_num

theorem idealFreq_add_half (k : ℝ) : idealFreq (k + 1 / 2) = idealFreq k * halfSemitone := by
  rw [idealFreq_add, halfSemitone]
  norm_num

/-- The operand is at most half a semitone away from its key's frequency (43 R242). -/
theorem abs_sub_idealFreq_le {v : ℕ} (hpos : 0 < v) (hlt : v < 2 ^ 31) :
    |(v : ℝ) - idealFreq (keyOf v)| ≤ v * (halfSemitone - 1) := by
  obtain ⟨hlow, hhigh⟩ := keyOf_edges hpos hlt
  obtain ⟨hratio, -⟩ := halfSemitone_bounds
  have hedge := idealFreq_add_half (keyOf v - 1 / 2)
  rw [sub_add_cancel] at hedge
  rw [idealFreq_add_half] at hhigh
  have hflat : idealFreq (keyOf v) ≤ v * halfSemitone := hedge ▸ by gcongr
  refine abs_le.mpr ⟨by linarith, ?_⟩
  nlinarith

/-- Settles O45: the operand is within half a semitone of its key's frequency, NF within one raw unit of it. -/
theorem deviationIsExactAndSmall : Obligations.DeviationIsExactAndSmall := by
  refine ⟨fun v hpos hlt => ?_, by decide⟩
  have hdev : |(deviationOf v : ℝ)| ≤ v * (halfSemitone - 1) + 1 := by
    have hnote := abs_sub_idealFreq_le hpos hlt
    have hnf := (abs_canonicalOf_sub_lt hpos hlt).le
    rw [abs_sub_comm] at hnf
    rw [deviationOf]
    push_cast
    exact (abs_sub_le _ _ _).trans (add_le_add hnote hnf)
  have hsmall : (v : ℝ) * (halfSemitone - 1) + 1 < 0.0294 * 2 ^ 31 := by
    have hv : (v : ℝ) < 2 ^ 31 := by exact_mod_cast hlt
    obtain ⟨hratio, hratio'⟩ := halfSemitone_bounds
    nlinarith
  refine ⟨rfl, hdev, hsmall, ?_⟩
  have hfits : |(deviationOf v : ℝ)| < 2 ^ 26 := by linarith
  exact_mod_cast hfits

/-! Doubling the operand. -/

/-- Doubling moves the leading one and leaves the mantissa (43 R243). -/
theorem notePos_two_mul {v : ℕ} (hpos : 0 < v) : notePos (2 * v) = notePos v + 1 :=
  Nat.log2_two_mul hpos.ne'

theorem noteMant_two_mul {v : ℕ} (hpos : 0 < v) (hlt : v < 2 ^ 30) : noteMant (2 * v) = noteMant v := by
  have hp := notePos_le hpos (hlt.trans (by decide))
  rw [noteMant, noteMant, notePos_two_mul hpos, show 32 - notePos v = 32 - (notePos v + 1) + 1 by omega, pow_succ]
  ring

/-- Doubling moves the step by an octave and leaves its place in the octave (43 R243). -/
theorem noteStep_two_mul {v q rr : ℕ} (hstep : noteStep v = (q, rr)) (hpos : 0 < v) (hlt : v < 2 ^ 30) :
    noteStep (2 * v) = (q + 1, rr) := by
  have hcount : noteCount (2 * v) = noteCount v := by
    rw [noteCount, noteMant_two_mul hpos hlt, noteCount]
  simp only [noteStep, hcount, notePos_two_mul hpos, Prod.ext_iff] at hstep ⊢
  split_ifs at hstep ⊢ <;> omega

/-- Both canonical frequencies are one entry of the ROM, scaled and rounded once: twice the error of the one and the
error of the other are less than 2, and their sum is whole (43 R243). -/
theorem abs_canonicalOf_two_mul_sub_le {v : ℕ} (hpos : 0 < v) (hlt : v < 2 ^ 30) :
    |canonicalOf (2 * v) - 2 * canonicalOf v| ≤ 1 := by
  rcases hstep : noteStep v with ⟨q, rr⟩
  have hstep' := noteStep_two_mul hstep hpos hlt
  have hscale : (2 : ℝ) ^ (((q + 1 : ℕ) : ℤ) - 30) = 2 * 2 ^ ((q : ℤ) - 30) := by
    rw [Nat.cast_succ, add_sub_right_comm, zpow_add_one₀ two_ne_zero, mul_comm]
  obtain ⟨hlow, hhigh⟩ := abs_le.mp (abs_canonicalOf_sub_entry_le hstep)
  obtain ⟨hlow', hhigh'⟩ := abs_le.mp (abs_canonicalOf_sub_entry_le hstep')
  rw [hscale] at hlow' hhigh'
  have hdiff : |((canonicalOf (2 * v) - 2 * canonicalOf v : ℤ) : ℝ)| < 2 := by
    push_cast
    rw [abs_lt]
    constructor <;> linarith
  exact Int.le_of_lt_add_one (by exact_mod_cast hdiff)

theorem canonicalOf_two_mul {v : ℕ} (hpos : 0 < v) (hlt : v < 2 ^ 30) (hq : 30 ≤ (noteStep v).1) :
    canonicalOf (2 * v) = 2 * canonicalOf v := by
  rcases hstep : noteStep v with ⟨q, rr⟩
  have hstep' := noteStep_two_mul hstep hpos hlt
  rw [hstep] at hq
  rw [canonicalOf_of_le hstep hq, canonicalOf_of_le hstep' (Nat.le_succ_of_le hq), Nat.sub_add_comm hq, pow_succ]
  ring

/-- Settles O46: `noteStep_two_mul` moves the step by an octave, and everything else follows the step. -/
theorem doublingRaisesAnOctave : Obligations.DoublingRaisesAnOctave := by
  intro v hpos hlt
  rcases hstep : noteStep v with ⟨q, rr⟩
  have hstep' := noteStep_two_mul hstep hpos hlt
  have hkey : keyOf (2 * v) = keyOf v + 12 := by
    rw [keyOf, hstep', keyOf, hstep]
    push_cast
    ring
  have hpc : pitchClassOf (2 * v) = pitchClassOf v := by
    rw [pitchClassOf_eq_step, hstep', pitchClassOf_eq_step, hstep]
  have hoct : octaveOf (2 * v) = octaveOf v + 1 := by
    rw [octaveOf, hkey, octaveOf]
    omega
  exact ⟨hkey, hpc, congrArg (noteNames.getD · 0) hpc, hoct, abs_canonicalOf_two_mul_sub_le hpos hlt,
    fun hq => canonicalOf_two_mul hpos hlt (hstep ▸ hq)⟩

end Sys2Proof.Machine
end

section
/-! SUPPORT. Reset as a turn of its own, and the completion of an accepted command within the schedule (70 R301, R315;
log entries 1, 5 and 12). -/

namespace Sys2Proof.Machine

/-! Reset. -/

theorem step_of_scheduled {s : State} {a : Agent} {q : List Agent} (h : s.sched = a :: q) :
    step s = takeTurn a { s with sched := q } := by
  simp [step, State.nextAgent_of_sched h, State.turnUsed, h]

/-- Settles O48: the scheduled turn is reset's, which gives the reset state with the other agents' queues. -/
theorem resetAbandonsTheCommand : Obligations.ResetAbandonsTheCommand :=
  fun s q h => ⟨resetTurn { s with sched := q }, step_of_scheduled h, rfl, rfl, rfl, rfl, rfl⟩

/-! The engine's turn. -/

theorem State.nextAgent_of_busy {s : State} (busy : s.busy = true) (h : s.sched = []) :
    s.nextAgent = some .engine := by
  simp [State.nextAgent, h, busy]

/-- On the engine's turn the command in flight computes its results and publishes them (40 R133). -/
theorem step_of_engine_next {s : State} {op : EngineCmd} (hs : s.Inv) (hengine : s.engine = some op)
    (turn : s.nextAgent = some .engine) :
    ∃ t, step s = .next t ∧ t.engine = none ∧ t.done = true ∧ t.res.srcOp = some op := by
  obtain ⟨r, hr⟩ := execute_ok (s := s.turnUsed) hs hengine
  refine ⟨s.turnUsed.publish op r, ?_, rfl, rfl, rfl⟩
  rw [step, turn]
  exact complete_of_ok hengine hr

/-- A host or stream turn of a busy block is answered, and the command stays in flight (40 R130, R133). -/
theorem step_keeps_inFlight {s : State} {op : EngineCmd} (hs : s.Inv) (hengine : s.engine = some op)
    (turn : s.nextAgent = some .host ∨ s.nextAgent = some .stream) :
    ∃ u, step s = .next u ∧ u.Inv ∧ u.engine = some op := by
  obtain ⟨u, hstep⟩ := invariantStatesNeverStop s hs
  have busy : s.busy = true := by simp [State.busy, hengine]
  obtain ⟨hfrozen, -⟩ := busyFreezesTheOperands s u busy hstep turn
  exact ⟨u, hstep, stepKeepsTheInvariant s u hs hstep, hfrozen.trans hengine⟩

/-! Completion within the schedule. -/

/-- From `s` the engine completes `op` after at most `n` steps of others. -/
abbrev State.CompletesWithin (s : State) (op : EngineCmd) (n : Nat) : Prop :=
  ∃ (k : Nat) (u t : State), k ≤ n ∧ core.run k s = .next u ∧ u.engine = some op ∧
    step u = .next t ∧ t.engine = none ∧ t.done = true ∧ t.res.srcOp = some op

theorem State.completesWithin_of_engine_next {s : State} {op : EngineCmd} (hs : s.Inv) (hengine : s.engine = some op)
    (turn : s.nextAgent = some .engine) (n : Nat) : s.CompletesWithin op n := by
  obtain ⟨t, hstep, hpublished⟩ := step_of_engine_next hs hengine turn
  exact ⟨0, s, t, n.zero_le, rfl, hengine, hstep, hpublished⟩

theorem run_succ_of_step {s u : State} (h : step s = .next u) (k : Nat) : core.run (k + 1) s = core.run k u := by
  simp [Host.Core.run, core, h]

theorem State.CompletesWithin.of_step {s u : State} {op : EngineCmd} {n : Nat} (h : u.CompletesWithin op n)
    (hstep : step s = .next u) : s.CompletesWithin op (n + 1) := by
  obtain ⟨k, v, t, hk, hrun, hcompletion⟩ := h
  exact ⟨k + 1, v, t, Nat.succ_le_succ hk, (run_succ_of_step hstep k).trans hrun, hcompletion⟩

/-- A scheduled turn is the engine's own, or a host or stream turn that leaves the command in flight with one turn fewer;
once none is left the busy engine is next (log entry 1). -/
theorem State.completesWithin_sched {s : State} {op : EngineCmd} {q : List Agent} (hq : s.sched = q) (hs : s.Inv)
    (hengine : s.engine = some op) (noReset : .reset ∉ q) : s.CompletesWithin op q.length := by
  induction q generalizing s with
  | nil =>
    have busy : s.busy = true := by simp [State.busy, hengine]
    exact State.completesWithin_of_engine_next hs hengine (State.nextAgent_of_busy busy hq) _
  | cons a q ih =>
    have turn : s.nextAgent = some a := State.nextAgent_of_sched hq
    obtain ⟨notReset, noReset⟩ := List.ne_and_not_mem_of_not_mem_cons noReset
    have waits (other : a = .host ∨ a = .stream) : s.CompletesWithin op (q.length + 1) := by
      obtain ⟨u, hstep, hu, hengine'⟩ := step_keeps_inFlight hs hengine (by simpa [turn] using other)
      exact (ih (step_sched hq hstep) hu hengine' noReset).of_step hstep
    cases a with
    | host => exact waits (.inl rfl)
    | stream => exact waits (.inr rfl)
    | engine => exact State.completesWithin_of_engine_next hs hengine turn _
    | reset => exact absurd rfl notReset

/-- Settles O58, by induction on the schedule (`State.completesWithin_sched`). -/
theorem acceptedCommandCompletes : Obligations.AcceptedCommandCompletes :=
  fun _ _ hs hengine noReset => State.completesWithin_sched rfl hs hengine noReset

end Sys2Proof.Machine
end
